-- ==== Sys2Proof/Word.lean ====
section
/-! DEFINITION. The word types of the block and the small records an operation's operands are made of
(00_scope.md R8, 10_state.md R21 to R39, 44_frame_transmitter.md R160). -/

namespace Sys2Proof

/-- A byte: a payload byte, a command byte, a byte of the stimulus (R51, R74). -/
abbrev Byte := BitVec 8

/-- A duration in ticks of one microsecond (R10, R24, R25, R110). -/
abbrev Dur := BitVec 16

/-- A remote command word (R74). -/
abbrev CmdWord := BitVec 32

/-- An outbound payload: 8 bytes, byte 0 in bits 63:56 (R56, R81). -/
abbrev Payload := BitVec 64

/-- A payload select or a changer state: INIT = 0, PLAY = 1, STOP = 2, 3 reserved (R83). -/
abbrev Sel := BitVec 2

/-- The input ports of the block, as sampled in one tick (R39). -/
structure Inputs where
  rst      : Bool
  remoteIn : Bool
  txStart  : Bool
  txSel    : Sel
  stateClr : Bool
deriving DecidableEq, Repr

/-- The levels of the three output lines (R35, R36, R37). -/
structure Lines where
  data   : Bool
  clock  : Bool
  strobe : Bool
deriving DecidableEq, Repr

/-- A waveform segment `(d, c, s) x n`; `data = none` is the `=` of R160: DATA keeps its value. -/
structure Seg where
  data   : Option Bool
  clock  : Bool
  strobe : Bool
  ticks  : Nat
deriving DecidableEq, Repr

end Sys2Proof
end

