-- ==== Sys2Proof/Config.lean ====
section
/-! DEFINITION. The configuration record of 00_scope.md R7: the parameters with a value as named
constants, the OPEN parameters as the fields of `Cfg`, and the payload ROM of 20_memory.md R51, R52. -/

namespace Sys2Proof

namespace Config

/-- Tally value that fires the idle timeout (R7, decision D3). -/
def timeoutTally : BitVec 8 := 254
/-- `T_TIMEOUT`: ticks without an edge until TIMEOUT (R7, R113). -/
def tTimeout : Nat := 65024

/-- Nominal start mark (R7). -/
def nStartMark : Nat := 9000
/-- Nominal start space (R7). -/
def nStartSpace : Nat := 4500
/-- Nominal data mark (R7). -/
def nBitMark : Nat := 650
/-- Nominal space of a one (R7). -/
def nOneSpace : Nat := 1750
/-- Nominal space of a zero (R7). -/
def nZeroSpace : Nat := 650
/-- `WORD_BITS`: data bits of a remote frame (R7). -/
def wordBits : BitVec 6 := 32

/-- The sync pattern (R7, R74). -/
def sync : BitVec 16 := 0x532C
/-- Command bytes with an effect (R7, R75). -/
def cmdSelectA : Byte := 0x08
def cmdSelectB : Byte := 0xA4
def cmdDeselect : Byte := 0x10

/-- Codes of `cstate` and `tx_sel` (R83). -/
def stInit : Sel := 0
def stPlay : Sel := 1
def stStop : Sel := 2
def stReserved : Sel := 3

/-- Transmitter durations with a value in the source (R7). -/
def tClkHigh : BitVec 16 := 5
def tClkLow : BitVec 16 := 11
def tStrobeSetup : BitVec 16 := 100
def tStrobeLow : BitVec 16 := 5

/-- The payload ROM (R51, R52): the byte `i` of the payload `sel` at address `sel * 8 + i`. -/
def rom : List Host.Cell :=
  [(0, 0x73), (1, 0xFF), (2, 0xFF), (3, 0xFF), (4, 0xFF), (5, 0xFF), (6, 0x7F), (7, 0x7B),
   (8, 0x33), (9, 0xFF), (10, 0xCF), (11, 0x81), (12, 0xCF), (13, 0x7F), (14, 0x7F), (15, 0x3B),
   (16, 0x13), (17, 0xFF), (18, 0xFF), (19, 0xFF), (20, 0xFF), (21, 0xFF), (22, 0x7F), (23, 0x1B)]

end Config

/-- The OPEN parameters (R7; 92_eei_decisions.md "Open parameters in one list"): three of the block,
three of the reference host. Any value that meets `Cfg.wf` is a legal configuration. -/
structure Cfg where
  tStrobeHold : BitVec 16
  tByteGap    : BitVec 16
  tInterbyte  : BitVec 16
  tStopPause  : Nat
  tCyclePause : Nat
  tSettle     : Nat
deriving DecidableEq, Repr

/-- The constraints on the OPEN parameters: the block's from 1 to 65,535, the host's two pauses at
least 1, the settle delay at least 0 (R7, decisions D14, D18, D24). -/
abbrev Cfg.wf (c : Cfg) : Prop :=
  c.tStrobeHold ≠ 0 ∧ c.tByteGap ≠ 0 ∧ c.tInterbyte ≠ 0 ∧ 1 ≤ c.tStopPause ∧ 1 ≤ c.tCyclePause

/-- `CFG_REF` (R7) for the block's parameters. DESIGN CHOICE (assumption 2): the host's three, which
have no reference value, are those of program P3 of 95_test_vectors.md. -/
def cfgRef : Cfg :=
  { tStrobeHold := 100, tByteGap := 205, tInterbyte := 4000
    tStopPause := 50, tCyclePause := 200, tSettle := 10 }

end Sys2Proof
end

