-- ==== Sys2Proof/Machine/Flags.lean ====
section
/-! DEFINITION. The one-bit results of the block: the Tolerance Comparator (40_tolerance_comparator.md),
the predicate VALID (42_remote_decoder.md R135) and the command bytes that have an effect (R75). -/

namespace Sys2Proof.Machine

/-- WITHIN (R100): strictly between 0.6 and 1.4 of nominal, in unbounded arithmetic (R101). -/
def within (m n : Nat) : Bool := decide (3 * n < 5 * m) && decide (5 * m < 7 * n)

/-- Fields of a command word (R74). -/
def wordSync (w : CmdWord) : BitVec 16 := w.extractLsb' 16 16
def wordCmd (w : CmdWord) : Byte := w.extractLsb' 8 8
def wordChk (w : CmdWord) : Byte := w.extractLsb' 0 8

/-- VALID(w) (R135). -/
def validWord (w : CmdWord) : Bool :=
  (wordSync w == Config.sync) && (wordChk w == (wordCmd w ^^^ 0xFF))

/-- A command byte that moves the changer state (R75). -/
def knownCommand (c : Byte) : Bool :=
  c == Config.cmdSelectA || c == Config.cmdSelectB || c == Config.cmdDeselect

/-- The windows of the four symbol durations (R71, R102). -/
def isStartMark (h : Dur) : Bool := within h.toNat Config.nStartMark
def isStartSpace (l : Dur) : Bool := within l.toNat Config.nStartSpace
def isBitMark (h : Dur) : Bool := within h.toNat Config.nBitMark
def isOneSpace (l : Dur) : Bool := within l.toNat Config.nOneSpace
def isZeroSpace (l : Dur) : Bool := within l.toNat Config.nZeroSpace

/-- A (mark, space) pair that is a BIT1 or a BIT0 symbol (R71). -/
def isDataSymbol (p : Dur × Dur) : Bool := isBitMark p.1 && (isOneSpace p.2 || isZeroSpace p.2)

end Sys2Proof.Machine
end

