-- ==== Sys2Proof/Syntax.lean ====
section
/-! DEFINITION. The operations of the block: one constructor per row of spec/opcode_table.json, in the
table's order and grouped by its formats (30_encoding.md R70, R88). -/

namespace Sys2Proof

/-- The operations of the opcode table. -/
inductive Instr
  -- EDGE (R82)
  | noedgeLo
  | noedgeHi
  | rise
  | fall
  -- SYMBOL (R72)
  | start
  | rejectIdle
  | rejectMark
  | bit1
  | bit0
  | rejectSpace
  -- CWORD (R74, R75)
  | cmdSelectA
  | cmdSelectB
  | cmdDeselect
  | cmdReserved (c : Byte)
  | wordInvalid (w : CmdWord)
  -- FUNC: VALID stands here in the table
  | valid (w : CmdWord)
  -- PAYLOAD (R81)
  | payloadInit
  | payloadPlay
  | payloadStop
  -- ENUM (R83, R166)
  | cstateInit
  | cstatePlay
  | cstateStop
  | cstateReserved
  | phaseIdle
  | phaseClkHi
  | phaseClkLo
  | phaseStbSetup
  | phaseStbLow
  | phaseStbHold
  | phaseByteGap
  | phaseInterbyte
  -- TXCELL, TXBYTE, TXFRAME (R161 to R164): the transmitter as a call
  | txBit (b : Bool)
  | txByteFramed (v : Byte)
  | txBytePlain (v : Byte)
  | txFrame (p : Payload)
  -- RFRAME (R73): start mark and space, the data symbols as (mark, space), the closing mark
  | rframe (startMark startSpace : Dur) (data : List (Dur × Dur)) (closing : Dur)
  -- TICK and HOST
  | step (inp : Inputs)
  | reset
  | stateClr
  | txStart (sel : Sel)
  | txStartRefused (sel : Sel)
  | txStep
  | advance
  | ovf
  | timeout
  | tmrClr
  -- FUNC
  | elapsed
  | within (m n : Dur)
  | ctxReset
  | complete
  | command (c : Byte)
  -- STIMULUS (R86, R87)
  | hi (n : Nat)
  | lo (n : Nat)
  | tx (sel : Sel)
  | clr
  | wait (n : Nat)
  | pulse (h l : Nat)
  | startItem
  | b1
  | b0
  | word (w : CmdWord)
  | cmd (c : Byte)
  | close
  | idle (n : Nat)
  | txw (sel : Sel)
  -- HOSTPROG (R191)
  | dispatch
deriving DecidableEq, Repr

end Sys2Proof
end

