-- ==== Sys2Proof/WellFormed.lean ====
section
/-! DEFINITION. Which terms of `Instr` are operations: the operand constraints the table's rows carry
(30_encoding.md R72 to R75, R86; 44_frame_transmitter.md R165) and the width of a tick count. -/

namespace Sys2Proof

/-- A tick count of a stimulus item fits its 32-bit field (DESIGN CHOICE, assumption 5). -/
def tickCountFits (n : Nat) : Bool := decide (n < 4294967296)

/-- The constraint of each row on its operands. -/
def Instr.wellFormed : Instr → Bool
  -- CMD_RESERVED: a valid word whose command byte is none of the three (R75)
  | .cmdReserved c => !Machine.knownCommand c
  -- WORD_INVALID: a word that fails VALID (R134)
  | .wordInvalid w => !Machine.validWord w
  -- TXSTART: only selects 0, 1, 2 are accepted (R165)
  | .txStart sel => sel != Config.stReserved
  -- RFRAME: a START symbol, 32 data symbols, a closing rising edge (R73)
  | .rframe hs ls data closing =>
      Machine.isStartMark hs && Machine.isStartSpace ls && decide (data.length = 32) &&
        data.all Machine.isDataSymbol && closing != 0
  | .hi n => tickCountFits n
  | .lo n => tickCountFits n
  | .wait n => tickCountFits n
  | .idle n => tickCountFits n
  | .pulse h l => tickCountFits h && tickCountFits l
  | .noedgeLo | .noedgeHi | .rise | .fall => true
  | .start | .rejectIdle | .rejectMark | .bit1 | .bit0 | .rejectSpace => true
  | .cmdSelectA | .cmdSelectB | .cmdDeselect => true
  | .valid _ => true
  | .payloadInit | .payloadPlay | .payloadStop => true
  | .cstateInit | .cstatePlay | .cstateStop | .cstateReserved => true
  | .phaseIdle | .phaseClkHi | .phaseClkLo | .phaseStbSetup => true
  | .phaseStbLow | .phaseStbHold | .phaseByteGap | .phaseInterbyte => true
  | .txBit _ | .txByteFramed _ | .txBytePlain _ | .txFrame _ => true
  | .step _ | .reset | .stateClr | .txStartRefused _ | .txStep => true
  | .advance | .ovf | .timeout | .tmrClr => true
  | .elapsed | .within _ _ | .ctxReset | .complete | .command _ => true
  | .tx _ | .clr | .startItem | .b1 | .b0 | .word _ | .cmd _ | .close | .txw _ => true
  | .dispatch => true

end Sys2Proof
end

