-- ==== Sys2Proof/Decode.lean ====
section
/-! DEFINITION. Decoding and encoding. The spec gives every format its own code space and no word that
selects among formats (30_encoding.md R70, R88), so a stimulus byte string names the format in a first
byte (DESIGN CHOICE, assumption 4); after it stand the bits the opcode table gives the row, then the
operands, least significant byte first. Every format has a decoder of its own, total on its code space. -/

namespace Sys2Proof

/-- Why a byte string names no operation. -/
inductive Reject
  /-- no bytes -/
  | empty
  /-- the first byte is no format number -/
  | unknownFormat (tag : Byte)
  /-- the format has no row of that code, or a bit outside the code's width is set -/
  | unknownCode (tag code : Byte)
  /-- the string ends inside the operation -/
  | truncated (tag : Byte)
  /-- a 64-bit value that is none of the three payload constants (R51) -/
  | notAPayload (p : Payload)
  /-- a host input vector that asserts no request -/
  | noRequest (v : Byte)
  /-- a host input vector that asserts `state_clr` and `tx_start` together: two operations -/
  | twoRequests (v : Byte)
deriving DecidableEq, Repr

/-! ### Little-endian operand fields -/

/-- The `n` low bytes of `v`, least significant first. -/
def leBytes : Nat → Nat → List Byte
  | 0, _ => []
  | n + 1, v => BitVec.ofNat 8 v :: leBytes n (v / 256)

/-- Read an `n`-byte field. -/
def takeLE : Nat → List Byte → Option (Nat × List Byte)
  | 0, bs => some (0, bs)
  | _ + 1, [] => none
  | n + 1, b :: bs => (takeLE n bs).map fun p => (b.toNat + 256 * p.1, p.2)

/-- Read `n` (mark, space) pairs of 16-bit durations. -/
def takePairs : Nat → List Byte → Option (List (Dur × Dur) × List Byte)
  | 0, bs => some ([], bs)
  | n + 1, bs =>
    match takeLE 2 bs with
    | none => none
    | some (h, bs1) =>
      match takeLE 2 bs1 with
      | none => none
      | some (l, bs2) =>
        (takePairs n bs2).map fun p => ((BitVec.ofNat 16 h, BitVec.ofNat 16 l) :: p.1, p.2)

/-- The bytes of a list of (mark, space) pairs. -/
def pairBytes : List (Dur × Dur) → List Byte
  | [] => []
  | p :: ps => leBytes 2 p.1.toNat ++ leBytes 2 p.2.toNat ++ pairBytes ps

/-! ### The host input vector -/

/-- `{rst, state_clr, tx_start, tx_sel[1:0], remote_in}`, `remote_in` in bit 0 (the table's HOST rows). -/
def Inputs.ofVector (v : BitVec 6) : Inputs :=
  { rst := v.getLsbD 5, stateClr := v.getLsbD 4, txStart := v.getLsbD 3
    txSel := v.extractLsb' 1 2, remoteIn := v.getLsbD 0 }

/-- The vector of an input record. -/
def Inputs.toVector (i : Inputs) : BitVec 6 :=
  BitVec.ofBool i.rst ++ (BitVec.ofBool i.stateClr ++ (BitVec.ofBool i.txStart ++
    (i.txSel ++ BitVec.ofBool i.remoteIn)))

/-! ### One decoder per format -/

/-- EDGE: the vector `{remote_prev, remote_in}` (R82). -/
def decodeEdge (v : BitVec 2) : Instr :=
  if v = 0b01 then .rise else if v = 0b10 then .fall else if v = 0b11 then .noedgeHi else .noedgeLo

/-- SYMBOL: the class `{M, SP}` and the decode flag, rows in priority order (R72). -/
def decodeSymbol (code : BitVec 4) (decoding : Bool) : Instr :=
  if code = 0b1011 then .start
  else if decoding = false then .rejectIdle
  else if code.extractLsb' 2 2 ≠ 0b01 then .rejectMark
  else if code.extractLsb' 0 2 = 0b10 then .bit1
  else if code.extractLsb' 0 2 = 0b01 then .bit0
  else .rejectSpace

/-- CWORD: rows in priority order (R75, R134). -/
def decodeCword (w : CmdWord) : Instr :=
  if w = 0x532C08F7 then .cmdSelectA
  else if w = 0x532CA45B then .cmdSelectB
  else if w = 0x532C10EF then .cmdDeselect
  else if Machine.validWord w then .cmdReserved (Machine.wordCmd w)
  else .wordInvalid w

/-- PAYLOAD: the three constants (R51, R81). -/
def decodePayload (p : Payload) : Option Instr :=
  if p = 0x73FFFFFFFFFF7F7B then some .payloadInit
  else if p = 0x33FFCF81CF7F7F3B then some .payloadPlay
  else if p = 0x13FFFFFFFFFF7F1B then some .payloadStop
  else none

/-- ENUM, registers `cstate` and `tx_sel` (R83). -/
def decodeCstate (v : Sel) : Instr :=
  if v = 0 then .cstateInit else if v = 1 then .cstatePlay else if v = 2 then .cstateStop
  else .cstateReserved

/-- ENUM, register `tx_phase` (R83, R166). -/
def decodePhase (v : BitVec 3) : Instr :=
  if v = 0 then .phaseIdle else if v = 1 then .phaseClkHi else if v = 2 then .phaseClkLo
  else if v = 3 then .phaseStbSetup else if v = 4 then .phaseStbLow else if v = 5 then .phaseStbHold
  else if v = 6 then .phaseByteGap else .phaseInterbyte

/-- HOST: the operation a host input vector requests, `busy` being `tx_phase != IDLE` (R151, R165,
R169, R240). -/
def decodeHost (i : Inputs) (busy : Bool) (raw : Byte) : Except Reject Instr :=
  if i.rst then .ok .reset
  else if i.stateClr && i.txStart then .error (.twoRequests raw)
  else if i.stateClr then .ok .stateClr
  else if i.txStart then
    if busy || i.txSel == Config.stReserved then .ok (.txStartRefused i.txSel) else .ok (.txStart i.txSel)
  else .error (.noRequest raw)

/-! ### Format numbers -/

/-- One number per format of R70 and R88; ENUM has two, one for each pair of registers it codes. -/
def fmtEdge : Byte := 1
def fmtSymbol : Byte := 2
def fmtCword : Byte := 3
def fmtPayload : Byte := 4
def fmtCstate : Byte := 5
def fmtPhase : Byte := 6
def fmtTxcell : Byte := 7
def fmtTxbyte : Byte := 8
def fmtTxframe : Byte := 9
def fmtRframe : Byte := 10
def fmtTick : Byte := 11
def fmtHost : Byte := 12
def fmtFunc : Byte := 13
def fmtStimulus : Byte := 14
def fmtHostprog : Byte := 15

/-! ### Formats with operands after the code byte -/

/-- An operation with one operand of `n` bytes. -/
def withField (tag : Byte) (n : Nat) (bs : List Byte) (f : Nat → Instr) :
    Except Reject (Instr × List Byte) :=
  match takeLE n bs with
  | none => .error (.truncated tag)
  | some (v, rest) => .ok (f v, rest)

/-- An operation with two operands of `n` bytes each. -/
def withTwoFields (tag : Byte) (n : Nat) (bs : List Byte) (f : Nat → Nat → Instr) :
    Except Reject (Instr × List Byte) :=
  match takeLE n bs with
  | none => .error (.truncated tag)
  | some (v, bs1) => withField tag n bs1 (f v)

/-- TICK: code 0 is STEP with its input vector; 1 to 5 the unconditional per-tick operations (R88). -/
def decodeTick (code : Byte) (bs : List Byte) : Except Reject (Instr × List Byte) :=
  match code.toNat with
  | 0 =>
    match bs with
    | [] => .error (.truncated fmtTick)
    | v :: rest =>
      if v.toNat < 64 then .ok (.step (Inputs.ofVector (v.setWidth 6)), rest)
      else .error (.unknownCode fmtTick v)
  | 1 => .ok (.txStep, bs)
  | 2 => .ok (.advance, bs)
  | 3 => .ok (.ovf, bs)
  | 4 => .ok (.timeout, bs)
  | 5 => .ok (.tmrClr, bs)
  | _ => .error (.unknownCode fmtTick code)

/-- FUNC: the functions with their operands (R88). -/
def decodeFunc (code : Byte) (bs : List Byte) : Except Reject (Instr × List Byte) :=
  match code.toNat with
  | 0 => withField fmtFunc 4 bs fun w => .valid (BitVec.ofNat 32 w)
  | 1 => .ok (.elapsed, bs)
  | 2 => withTwoFields fmtFunc 2 bs fun m n => .within (BitVec.ofNat 16 m) (BitVec.ofNat 16 n)
  | 3 => .ok (.ctxReset, bs)
  | 4 => .ok (.complete, bs)
  | 5 => withField fmtFunc 1 bs fun c => .command (BitVec.ofNat 8 c)
  | _ => .error (.unknownCode fmtFunc code)

/-- A select operand: one byte, its upper six bits zero. -/
def withSel (tag : Byte) (bs : List Byte) (f : Sel → Instr) : Except Reject (Instr × List Byte) :=
  match bs with
  | [] => .error (.truncated tag)
  | v :: rest => if v.toNat < 4 then .ok (f (v.setWidth 2), rest) else .error (.unknownCode tag v)

/-- STIMULUS: items and pseudo-items in the table's order (R86, R87). -/
def decodeStimulus (code : Byte) (bs : List Byte) : Except Reject (Instr × List Byte) :=
  match code.toNat with
  | 0 => withField fmtStimulus 4 bs .hi
  | 1 => withField fmtStimulus 4 bs .lo
  | 2 => withSel fmtStimulus bs .tx
  | 3 => .ok (.clr, bs)
  | 4 => withField fmtStimulus 4 bs .wait
  | 5 => withTwoFields fmtStimulus 4 bs .pulse
  | 6 => .ok (.startItem, bs)
  | 7 => .ok (.b1, bs)
  | 8 => .ok (.b0, bs)
  | 9 => withField fmtStimulus 4 bs fun w => .word (BitVec.ofNat 32 w)
  | 10 => withField fmtStimulus 1 bs fun c => .cmd (BitVec.ofNat 8 c)
  | 11 => .ok (.close, bs)
  | 12 => withField fmtStimulus 4 bs .idle
  | 13 => withSel fmtStimulus bs .txw
  | _ => .error (.unknownCode fmtStimulus code)

/-- RFRAME: start symbol, 32 data symbols, closing mark (R73). -/
def decodeRframe (bs : List Byte) : Except Reject (Instr × List Byte) :=
  match takePairs 1 bs with
  | some ([(hs, ls)], bs1) =>
    match takePairs 32 bs1 with
    | none => .error (.truncated fmtRframe)
    | some (data, bs2) => withField fmtRframe 2 bs2 fun c => .rframe hs ls data (BitVec.ofNat 16 c)
  | _ => .error (.truncated fmtRframe)

/-- The formats whose whole operation is one code byte. -/
def decodeCodeByte (tag code : Byte) : Except Reject Instr :=
  match tag.toNat with
  | 1 => if code.toNat < 4 then .ok (decodeEdge (code.setWidth 2)) else .error (.unknownCode tag code)
  | 2 =>
    if code.toNat < 32 then .ok (decodeSymbol (code.setWidth 4) (code.getLsbD 4))
    else .error (.unknownCode tag code)
  | 5 => if code.toNat < 4 then .ok (decodeCstate (code.setWidth 2)) else .error (.unknownCode tag code)
  | 6 => if code.toNat < 8 then .ok (decodePhase (code.setWidth 3)) else .error (.unknownCode tag code)
  | 7 => if code.toNat < 2 then .ok (.txBit (code.getLsbD 0)) else .error (.unknownCode tag code)
  | 12 =>
    if code.toNat < 128 then decodeHost (Inputs.ofVector (code.setWidth 6)) (code.getLsbD 6) code
    else .error (.unknownCode tag code)
  | 15 => if code.toNat = 0 then .ok .dispatch else .error (.unknownCode tag code)
  | _ => .error (.unknownFormat tag)

/-- TXBYTE: 0 plain, 1 framed, then the byte (R162, R163). -/
def decodeTxbyte (code : Byte) (bs : List Byte) : Except Reject (Instr × List Byte) :=
  match code.toNat with
  | 0 => withField fmtTxbyte 1 bs fun v => .txBytePlain (BitVec.ofNat 8 v)
  | 1 => withField fmtTxbyte 1 bs fun v => .txByteFramed (BitVec.ofNat 8 v)
  | _ => .error (.unknownCode fmtTxbyte code)

/-- PAYLOAD: 8 bytes. -/
def decodePayloadBytes (bs : List Byte) : Except Reject (Instr × List Byte) :=
  match takeLE 8 bs with
  | none => .error (.truncated fmtPayload)
  | some (p, rest) =>
    match decodePayload (BitVec.ofNat 64 p) with
    | none => .error (.notAPayload (BitVec.ofNat 64 p))
    | some i => .ok (i, rest)

/-- A format that begins with a code byte. -/
def withCode (tag : Byte) (bs : List Byte) (f : Byte → List Byte → Except Reject (Instr × List Byte)) :
    Except Reject (Instr × List Byte) :=
  match bs with
  | [] => .error (.truncated tag)
  | code :: rest => f code rest

/-- The decoder: the first operation of a byte string and the bytes after it. -/
def decode (bs : List Byte) : Except Reject (Instr × List Byte) :=
  match bs with
  | [] => .error .empty
  | tag :: rest =>
    match tag.toNat with
    | 3 => withField tag 4 rest fun w => decodeCword (BitVec.ofNat 32 w)
    | 4 => decodePayloadBytes rest
    | 8 => withCode tag rest decodeTxbyte
    | 9 => withField tag 8 rest fun p => .txFrame (BitVec.ofNat 64 p)
    | 10 => decodeRframe rest
    | 11 => withCode tag rest decodeTick
    | 13 => withCode tag rest decodeFunc
    | 14 => withCode tag rest decodeStimulus
    | _ => withCode tag rest fun code rest => (decodeCodeByte tag code).map fun i => (i, rest)

/-! ### The encoder -/

/-- The host input vector with one request asserted, `tx_phase != IDLE` in bit 6. -/
def hostByte (busy : Bool) (i : Inputs) : Byte :=
  (BitVec.ofBool busy ++ i.toVector).setWidth 8

/-- All inputs at 0. -/
def Inputs.none : Inputs :=
  { rst := false, remoteIn := false, txStart := false, txSel := 0, stateClr := false }

/-- The words of an operation. SYMBOL code byte: `decoding` in bit 4, `{M, SP}` in bits 3:0. -/
def encode : Instr → List Byte
  | .noedgeLo => [fmtEdge, 0b00]
  | .noedgeHi => [fmtEdge, 0b11]
  | .rise => [fmtEdge, 0b01]
  | .fall => [fmtEdge, 0b10]
  | .start => [fmtSymbol, 0b01011]
  | .rejectIdle => [fmtSymbol, 0b00000]
  | .rejectMark => [fmtSymbol, 0b10000]
  | .bit1 => [fmtSymbol, 0b10110]
  | .bit0 => [fmtSymbol, 0b10101]
  | .rejectSpace => [fmtSymbol, 0b10100]
  | .cmdSelectA => fmtCword :: leBytes 4 0x532C08F7
  | .cmdSelectB => fmtCword :: leBytes 4 0x532CA45B
  | .cmdDeselect => fmtCword :: leBytes 4 0x532C10EF
  | .cmdReserved c => fmtCword :: leBytes 4 (Config.sync ++ (c ++ (c ^^^ 0xFF))).toNat
  | .wordInvalid w => fmtCword :: leBytes 4 w.toNat
  | .valid w => fmtFunc :: 0 :: leBytes 4 w.toNat
  | .payloadInit => fmtPayload :: leBytes 8 0x73FFFFFFFFFF7F7B
  | .payloadPlay => fmtPayload :: leBytes 8 0x33FFCF81CF7F7F3B
  | .payloadStop => fmtPayload :: leBytes 8 0x13FFFFFFFFFF7F1B
  | .cstateInit => [fmtCstate, 0]
  | .cstatePlay => [fmtCstate, 1]
  | .cstateStop => [fmtCstate, 2]
  | .cstateReserved => [fmtCstate, 3]
  | .phaseIdle => [fmtPhase, 0]
  | .phaseClkHi => [fmtPhase, 1]
  | .phaseClkLo => [fmtPhase, 2]
  | .phaseStbSetup => [fmtPhase, 3]
  | .phaseStbLow => [fmtPhase, 4]
  | .phaseStbHold => [fmtPhase, 5]
  | .phaseByteGap => [fmtPhase, 6]
  | .phaseInterbyte => [fmtPhase, 7]
  | .txBit b => [fmtTxcell, (BitVec.ofBool b).setWidth 8]
  | .txByteFramed v => fmtTxbyte :: 1 :: leBytes 1 v.toNat
  | .txBytePlain v => fmtTxbyte :: 0 :: leBytes 1 v.toNat
  | .txFrame p => fmtTxframe :: leBytes 8 p.toNat
  | .rframe hs ls data closing =>
      fmtRframe :: (pairBytes [(hs, ls)] ++ (pairBytes data ++ leBytes 2 closing.toNat))
  | .step inp => [fmtTick, 0, inp.toVector.setWidth 8]
  | .reset => [fmtHost, hostByte false { Inputs.none with rst := true }]
  | .stateClr => [fmtHost, hostByte false { Inputs.none with stateClr := true }]
  | .txStart sel => [fmtHost, hostByte false { Inputs.none with txStart := true, txSel := sel }]
  | .txStartRefused sel => [fmtHost, hostByte true { Inputs.none with txStart := true, txSel := sel }]
  | .txStep => [fmtTick, 1]
  | .advance => [fmtTick, 2]
  | .ovf => [fmtTick, 3]
  | .timeout => [fmtTick, 4]
  | .tmrClr => [fmtTick, 5]
  | .elapsed => [fmtFunc, 1]
  | .within m n => fmtFunc :: 2 :: (leBytes 2 m.toNat ++ leBytes 2 n.toNat)
  | .ctxReset => [fmtFunc, 3]
  | .complete => [fmtFunc, 4]
  | .command c => fmtFunc :: 5 :: leBytes 1 c.toNat
  | .hi n => fmtStimulus :: 0 :: leBytes 4 n
  | .lo n => fmtStimulus :: 1 :: leBytes 4 n
  | .tx sel => [fmtStimulus, 2, sel.setWidth 8]
  | .clr => [fmtStimulus, 3]
  | .wait n => fmtStimulus :: 4 :: leBytes 4 n
  | .pulse h l => fmtStimulus :: 5 :: (leBytes 4 h ++ leBytes 4 l)
  | .startItem => [fmtStimulus, 6]
  | .b1 => [fmtStimulus, 7]
  | .b0 => [fmtStimulus, 8]
  | .word w => fmtStimulus :: 9 :: leBytes 4 w.toNat
  | .cmd c => fmtStimulus :: 10 :: leBytes 1 c.toNat
  | .close => [fmtStimulus, 11]
  | .idle n => fmtStimulus :: 12 :: leBytes 4 n
  | .txw sel => [fmtStimulus, 13, sel.setWidth 8]
  | .dispatch => [fmtHostprog, 0]

/-! ### Words of the opcode table -/

/-- The stimulus bytes for a word `w` of `nbits` bits of the opcode table. The table's word carries no
format: 2 bits are an EDGE vector, 3 bits a phase code, 4 bits a symbol class, 32 bits a command word,
64 bits a payload; in a whole byte 0 to 3 is an EDGE vector and 4 to 15 a symbol class. A symbol class
is taken with `decoding` = 1, which the rows BIT1, BIT0, REJECT_MARK and REJECT_SPACE require
(DESIGN CHOICE, assumption 4). -/
def tableBytes (nbits w : Nat) : List Byte :=
  if nbits = 64 then fmtPayload :: leBytes 8 w
  else if nbits = 32 then fmtCword :: leBytes 4 w
  else if nbits = 3 then [fmtPhase, BitVec.ofNat 8 w]
  else if nbits = 4 ∨ (nbits ≠ 2 ∧ 4 ≤ w) then
    if w < 16 then [fmtSymbol, BitVec.ofNat 8 (16 + w)] else []
  else [fmtEdge, BitVec.ofNat 8 w]

/-- The operation the decoder reads from a word of the opcode table. -/
def decodeTableWord (nbits w : Nat) : Option Instr :=
  match decode (tableBytes nbits w) with
  | .ok (i, []) => some i
  | _ => none

end Sys2Proof
end

