-- ==== Sys2Proof/Machine/State.lean ====
section
/-! DEFINITION. The state. `Rx` and `Tx` are the two halves of the block's record `S` (10_state.md R20 to
R37, 46_top_level_step.md R202). The other fields of `State` are what R48 keeps out of `S` and a step needs
all the same: the configuration record, the sampled inputs, the outside world (the host and the stimulus),
and the observer (tick number, labels, the value a function returned). -/

namespace Sys2Proof.Machine

/-- The timer, the edge detector, the decoder and the changer state (R21 to R29). -/
structure Rx where
  cnt        : BitVec 8
  ovf        : BitVec 8
  remotePrev : Bool
  hiDur      : Dur
  loDur      : Dur
  decoding   : Bool
  nbits      : BitVec 6
  cmdBuf     : BitVec 32
  cstate     : BitVec 2
deriving DecidableEq, Repr

/-- The eight phases of the transmitter sequencer (R30). -/
inductive TxPhase
  | idle | clkHi | clkLo | stbSetup | stbLow | stbHold | byteGap | interbyte
deriving DecidableEq, Repr

/-- The transmitter (R30 to R37). -/
structure Tx where
  phase     : TxPhase
  dly       : BitVec 16
  byte      : BitVec 3
  bit       : BitVec 3
  pay       : BitVec 64
  dataOut   : Bool
  clockOut  : Bool
  strobeOut : Bool
deriving DecidableEq, Repr

/-- The observation labels, a closed list (60_exceptions.md R211). -/
inductive Label
  | reset
  | stateClr
  | timeout
  | fall (d : Dur)
  | start
  | bit0
  | bit1
  | rejectIdle
  | rejectMark
  | rejectSpace
  | doneValid (c : Byte)
  | doneInvalid (w : CmdWord)
  | txStart (sel : Sel)
  | txDone
deriving DecidableEq, Repr

/-- A label with the number of the tick that emitted it (R10). -/
structure Event where
  tick  : Nat
  label : Label
deriving DecidableEq, Repr

/-- What a function of the block returned: no register holds it (R100, R110, R135). -/
inductive Result
  | none
  | bit (b : Bool)
  | ticks (d : Dur)
  | code (v : Sel)
  | payload (p : Payload)
  | wave (w : List Seg)
deriving DecidableEq, Repr

/-- An item of a host list run beside the remote's (R86). -/
inductive HostItem
  | wait (n : Nat)
  | tx (sel : Sel)
  | clr
  | reset
  | txw (sel : Sel)
  | waitIdle
deriving DecidableEq, Repr

/-- Where the reference host stands in DISPATCH (R191). -/
inductive DispatchPc
  /-- `n` ticks of pause (settle or cycle) before the next iteration reads `changer_state` -/
  | pause (n : Nat)
  /-- a frame of the iteration that read `s` is on its way; `second` is the confirming STOP frame -/
  | sending (s : Sel) (second : Bool)
  /-- `n` ticks of pause before the confirming STOP frame -/
  | stopPause (n : Nat)
deriving DecidableEq, Repr

/-- The host: absent (it asserts nothing), a list of items, or the reference host. -/
inductive HostAgent
  | absent
  | script (items : List HostItem)
  | dispatch (pc : DispatchPc)
deriving DecidableEq, Repr

/-- What a host asserts in one tick (R39, R193). -/
inductive HostReq
  | none
  | tx (sel : Sel)
  | clr
  | reset
deriving DecidableEq, Repr

/-- The state of the model. -/
structure State where
  rx     : Rx
  tx     : Tx
  /-- the configuration record: no operation writes it (R7, R48) -/
  cfg    : Cfg
  /-- the input ports as last sampled; an item that does not name `remote_in` or `tx_sel` keeps them (R86) -/
  inp    : Inputs
  /-- the host that runs beside the stimulus -/
  host   : HostAgent
  /-- the stimulus still to run, as bytes -/
  stim   : List Byte
  /-- ticks since the release of reset (R10) -/
  now    : Nat
  /-- the labels of the last operation, oldest first (R203, R211) -/
  labels : List Event
  /-- the value the last operation returned -/
  result : Result
deriving DecidableEq, Repr

/-- The reasons a step can stop with a fault: none. "A model must not add a fault state" (R210); "Nothing
in the block is `fault`, `stuck` or `any value`" (93_implementation_defined.md). No constructor, so
nothing raises one. -/
inductive Fault
deriving DecidableEq, Repr

/-- The reasons a step can refuse. -/
inductive Refusal
  /-- Raised by no arm: every operation of the table has its meaning. Safe. -/
  | notModelled (mnemonic : String)
  /-- Raised by `step` when the stimulus bytes name no operation. The bytes are the model's own form of a
  stimulus list, so no behaviour of the block is lost. Safe. -/
  | notAStimulus (why : Reject)
deriving DecidableEq, Repr

/-- The reset values of the timer and decoder half (R47). -/
def Rx.reset : Rx :=
  { cnt := 0, ovf := 0, remotePrev := false, hiDur := 0, loDur := 0, decoding := false
    nbits := 0, cmdBuf := 0, cstate := 0 }

/-- The reset values of the transmitter half (R47). -/
def Tx.reset : Tx :=
  { phase := .idle, dly := 0, byte := 0, bit := 0, pay := 0
    dataOut := false, clockOut := false, strobeOut := true }

/-- The machine right after reset: R47, with every input at 0, no host, no stimulus and time 0 (R10). The
configuration is `cfgRef` (DESIGN CHOICE, assumption 2). -/
def State.reset : State :=
  { rx := Rx.reset, tx := Tx.reset, cfg := cfgRef, inp := Inputs.none, host := .absent
    stim := [], now := 0, labels := [], result := .none }

end Sys2Proof.Machine
end

