-- ==== Sys2Proof/Machine/Operands.lean ====
section
/-! DEFINITION. The operand forms: the elapsed time, the symbol class, the payload ROM and the bits of a
payload, the derived outputs and the derived durations. -/

namespace Sys2Proof.Machine

/-! ### Durations and symbols -/

/-- ELAPSED (R110): the tally in the high byte, the counter in the low byte. -/
def elapsedOf (r : Rx) : Dur := (r.ovf.setWidth 16 <<< 8) + r.cnt.setWidth 16

/-- The mark class `M` (R72). -/
def markClass (h : Dur) : BitVec 2 := if isBitMark h then 1 else if isStartMark h then 2 else 0

/-- The space class `SP` (R72). -/
def spaceClass (l : Dur) : BitVec 2 :=
  if isZeroSpace l then 1 else if isOneSpace l then 2 else if isStartSpace l then 3 else 0

/-- The symbol code `{M, SP}` (R72). -/
def symbolClass (h l : Dur) : BitVec 4 := markClass h ++ spaceClass l

/-- The edge vector `{remote_prev, remote_in}` (R82). -/
def edgeVector (prev now : Bool) : BitVec 2 := BitVec.ofBool prev ++ BitVec.ofBool now

/-! ### The payload ROM -/

/-- The canonical form of a memory: addresses strictly rising. An address that is not listed does not
exist (R50, R52), so no entry can repeat what an unlisted address reads as. -/
abbrev Memory.wf (m : List Host.Cell) : Prop := m.Pairwise fun a b => a.1 < b.1

/-- `MemRead(addr, 1)` (R53); `none` at an address the ROM does not have (R50, R52). -/
def memRead (addr : Nat) : Option Byte := (Config.rom.find? fun c => c.1 == addr).map fun c => c.2

/-- `PAYLOAD(sel)`: eight byte reads at `sel * 8 + i`, byte 0 most significant (R52, R53, R56). -/
def readPayload (sel : Sel) : Option Payload :=
  (List.range 8).foldl
    (fun acc i => acc.bind fun p => (memRead (sel.toNat * 8 + i)).map fun b => (p <<< 8) ||| b.setWidth 64)
    (some 0)

/-- `p.b[i]` (R34, R56). -/
def payByte (p : Payload) (i : BitVec 3) : Byte := p.extractLsb' (8 * (7 - i.toNat)) 8

/-- `p.b[i][j]` (R34, R57). -/
def payBit (p : Payload) (i j : BitVec 3) : Bool := (payByte p i).getLsbD j.toNat

/-! ### Codes and outputs -/

/-- The code of a phase (R83). -/
def TxPhase.code : TxPhase → BitVec 3
  | .idle => 0
  | .clkHi => 1
  | .clkLo => 2
  | .stbSetup => 3
  | .stbLow => 4
  | .stbHold => 5
  | .byteGap => 6
  | .interbyte => 7

/-- `tx_busy` (R38). -/
def Tx.busy (t : Tx) : Bool := t.phase != .idle

/-- The three lines (R35 to R37). -/
def Tx.lines (t : Tx) : Lines := { data := t.dataOut, clock := t.clockOut, strobe := t.strobeOut }

/-- The output ports (R40). -/
structure Outputs where
  dataOut      : Bool
  clockOut     : Bool
  strobeOut    : Bool
  txBusy       : Bool
  changerState : BitVec 2
deriving DecidableEq, Repr

/-- Every output is a projection of the post-state (R40). -/
def State.outputs (s : State) : Outputs :=
  { dataOut := s.tx.dataOut, clockOut := s.tx.clockOut, strobeOut := s.tx.strobeOut
    txBusy := s.tx.busy, changerState := s.rx.cstate }

/-- The inputs of a tick in which no item names one: requests at 0, `remote_in` and `tx_sel` at their last
levels (R86). -/
def State.restInputs (s : State) : Inputs :=
  { s.inp with rst := false, txStart := false, stateClr := false }

/-! ### Derived durations -/

/-- The length of a waveform in ticks (R160). -/
def waveTicks (w : List Seg) : Nat := (w.map fun g => g.ticks).sum

/-- `L_F`, the length of a framed byte (R162, R171). -/
def lenFramed (c : Cfg) : Nat :=
  128 + Config.tStrobeSetup.toNat + Config.tStrobeLow.toNat + c.tStrobeHold.toNat

/-- `L_P`, the length of a plain byte (R163, R171). -/
def lenPlain (c : Cfg) : Nat := 128 + c.tByteGap.toNat

/-- `T_FRAME` (R80, R171). -/
def tFrame (c : Cfg) : Nat := 2 * lenFramed c + 6 * lenPlain c + 7 * c.tInterbyte.toNat

end Sys2Proof.Machine
end

