-- ==== Sys2Proof/Machine/Ops.lean ====
section
/-! DEFINITION. The named operations on the two halves: each is the pseudocode of its rule, from the
registers of a half to the registers after it and the labels it emits. The block has no trap: the entry
that takes the place of an exception is `ctxReset` with a label (60_exceptions.md R210, R212), and there is
no return from it (R215, R216). -/

namespace Sys2Proof.Machine

/-- An operation of the timer and decoder half. -/
abbrev RxOp := Rx → Rx × List Label

/-- An operation of the transmitter half. -/
abbrev TxOp := Tx → Tx × List Label

/-- One operation after another in the same tick, the second seeing the writes of the first (R9). -/
def seqRx (f g : RxOp) : RxOp := fun r => ((g (f r).1).1, (f r).2 ++ (g (f r).1).2)

/-- An operation that runs only if its condition holds. -/
def whenRx (c : Bool) (f : RxOp) : RxOp := fun r => if c then f r else (r, [])

/-! ### Context reset and the Pulse Timer -/

/-- CTXRESET (R125). -/
def ctxReset (r : Rx) : Rx :=
  { r with ovf := 0, hiDur := 0, loDur := 0, decoding := false, nbits := 0, cmdBuf := 0 }

/-- A silent error or idle event: the context is reset and a label says why (R212). -/
def rejectWith (l : Label) : RxOp := fun r => (ctxReset r, [l])

/-- TIMEOUT (R113). -/
def timeoutOp : RxOp := rejectWith .timeout

/-- OVF (R112). -/
def ovfOp : RxOp := fun r =>
  if r.ovf + 1 = Config.timeoutTally then timeoutOp { r with ovf := r.ovf + 1 }
  else ({ r with ovf := r.ovf + 1 }, [])

/-- ADVANCE (R111). -/
def advanceOp : RxOp := fun r =>
  if r.cnt = 255 then ovfOp { r with cnt := 0 } else ({ r with cnt := r.cnt + 1 }, [])

/-- TMRCLR (R114). -/
def tmrClr (r : Rx) : Rx := { r with cnt := 0, ovf := 0 }

/-! ### The Changer State register -/

/-- COMMAND(c) (R150). -/
def command (c : Byte) (r : Rx) : Rx :=
  if c = Config.cmdSelectA ∨ c = Config.cmdSelectB then { r with cstate := Config.stPlay }
  else if c = Config.cmdDeselect then { r with cstate := Config.stStop }
  else r

/-- STATECLR (R151). -/
def stateClrOp : RxOp := fun r => ({ r with cstate := Config.stInit }, [.stateClr])

/-! ### The Remote Decoder -/

/-- The accept arm of COMPLETE for a word with command byte `c` (R134). -/
def acceptWord (c : Byte) : RxOp := fun r => (command c r, [.doneValid c])

/-- The discard arm of COMPLETE (R134). -/
def discardWord (w : CmdWord) : RxOp := fun r => (r, [.doneInvalid w])

/-- COMPLETE (R134). -/
def completeOp : RxOp := fun r =>
  let p := if validWord r.cmdBuf then acceptWord (wordCmd r.cmdBuf) r else discardWord r.cmdBuf r
  (ctxReset p.1, p.2)

/-- FALL(d) (R126). -/
def fallOp (d : Dur) : RxOp := fun r => ({ r with hiDur := d }, [.fall d])

/-- START (R128). -/
def startOp : RxOp := fun r => ({ r with cmdBuf := 0, nbits := 0, decoding := true }, [.start])

/-- BIT1 and BIT0: shift the bit in at the bottom (R131, R132, R76). -/
def bitOp (b : Bool) : RxOp := fun r =>
  ({ r with cmdBuf := (r.cmdBuf <<< 1) ||| (BitVec.ofBool b).setWidth 32, nbits := r.nbits + 1 },
   [if b then .bit1 else .bit0])

/-- The branch of RISE, in the source's order of tests, on the mark `h` and the space `l` (R127). -/
def riseBranch (h l : Dur) : RxOp := fun r =>
  if isStartMark h && isStartSpace l then startOp r
  else if r.decoding = false then rejectWith .rejectIdle r
  else if isBitMark h = false then rejectWith .rejectMark r
  else if isOneSpace l then bitOp true r
  else if isZeroSpace l then bitOp false r
  else rejectWith .rejectSpace r

/-- The end of RISE: COMPLETE when the count just written is 32 (R127, R134). -/
def completeIfFull : RxOp := fun r => if r.nbits = Config.wordBits then completeOp r else (r, [])

/-- RISE(d) (R127). -/
def riseOp (d : Dur) : RxOp := fun r =>
  seqRx (riseBranch r.hiDur d) completeIfFull { r with loDur := d }

/-- An edge operation and the TMRCLR after it (R114, R200). -/
def edgeOp (f : Dur → RxOp) : RxOp := fun r => (tmrClr (f (elapsedOf r) r).1, (f (elapsedOf r) r).2)

/-! ### The Frame Transmitter -/

/-- Enter the high part of the bit cell of bit `j` of byte `i` (R161, R167). -/
def enterCell (i j : BitVec 3) (t : Tx) : Tx :=
  { t with byte := i, bit := j, dataOut := payBit t.pay i j, clockOut := true
           phase := .clkHi, dly := Config.tClkHigh }

/-- TXSTART (R165): the payload is latched and the first bit cell begins in this tick. A select that names
no payload is refused before any read (R52, R169). -/
def txStartOp (sel : Sel) : TxOp := fun t =>
  match readPayload sel with
  | some p => (enterCell 0 7 { t with pay := p }, [.txStart sel])
  | none => (t, [])

/-- A request, as the IDLE arm of TXSTEP and TXSTART take it (R165, R169). -/
def txRequest (start : Bool) (sel : Sel) : TxOp := fun t =>
  if start && t.phase == .idle && sel != Config.stReserved then txStartOp sel t else (t, [])

/-- One tick of a timed phase: count down, and in its last tick hand over (R167). -/
def countDown (last : TxOp) : TxOp := fun t =>
  if 1 < t.dly then ({ t with dly := t.dly - 1 }, []) else last t

/-- The last tick of CLK_HI (R167). -/
def endClkHi : TxOp := fun t =>
  ({ t with clockOut := false, phase := .clkLo, dly := Config.tClkLow }, [])

/-- The last tick of CLK_LO (R167). -/
def endClkLo (c : Cfg) : TxOp := fun t =>
  if 0 < t.bit then (enterCell t.byte (t.bit - 1) t, [])
  else if t.byte = 0 ∨ t.byte = 7 then ({ t with phase := .stbSetup, dly := Config.tStrobeSetup }, [])
  else ({ t with phase := .byteGap, dly := c.tByteGap }, [])

/-- The last tick of STB_SETUP (R167). -/
def endStbSetup : TxOp := fun t =>
  ({ t with strobeOut := false, phase := .stbLow, dly := Config.tStrobeLow }, [])

/-- The last tick of STB_LOW (R167). -/
def endStbLow (c : Cfg) : TxOp := fun t =>
  ({ t with strobeOut := true, phase := .stbHold, dly := c.tStrobeHold }, [])

/-- The return to IDLE: the lines stay as the last segment left them (R167, R168). -/
def toIdle : TxOp := fun t => ({ t with phase := .idle, dly := 0 }, [.txDone])

/-- The last tick of STB_HOLD (R167, R168). -/
def endStbHold (c : Cfg) : TxOp := fun t =>
  if t.byte = 7 then toIdle t
  else ({ t with phase := .interbyte, dly := c.tInterbyte }, [])

/-- The last tick of BYTE_GAP (R167). -/
def endByteGap (c : Cfg) : TxOp := fun t => ({ t with phase := .interbyte, dly := c.tInterbyte }, [])

/-- The last tick of INTERBYTE (R167). -/
def endInterbyte : TxOp := fun t => (enterCell (t.byte + 1) 7 t, [])

/-- What a phase does in its last tick (R166, R167). -/
def handOver (c : Cfg) : TxPhase → TxOp
  | .idle => fun t => (t, [])
  | .clkHi => endClkHi
  | .clkLo => endClkLo c
  | .stbSetup => endStbSetup
  | .stbLow => endStbLow c
  | .stbHold => endStbHold c
  | .byteGap => endByteGap c
  | .interbyte => endInterbyte

/-- The shape of TXSTEP: IDLE looks for work, a timed phase counts down and hands over (R167). RESET apart,
nothing else writes a register of the transmitter (R30 to R37). -/
def stepArm (idle : TxOp) (last : TxPhase → TxOp) (p : TxPhase) : TxOp :=
  if p = .idle then idle else countDown (last p)

/-- The arm of TXSTEP for one phase (R166, R167). -/
def phaseArm (c : Cfg) (inp : Inputs) (p : TxPhase) : TxOp :=
  stepArm (txRequest inp.txStart inp.txSel) (handOver c) p

/-- TXSTEP (R167). -/
def txStepOp (c : Cfg) (inp : Inputs) : TxOp := fun t => phaseArm c inp t.phase t

/-- TXSTEP in the tick that begins a transmitter call: IDLE latches the operand `p`, as TXSTART latches a
payload, and begins the cell of its byte `i`, bit `j` (R161 to R165). A call carries no select, so it has
no TXSTART label (assumption 8). -/
def callBegin (c : Cfg) (p : Payload) (i j : BitVec 3) : TxOp := fun t =>
  stepArm (fun t => (enterCell i j { t with pay := p }, [])) (handOver c) t.phase t

/-- TXSTEP in the tick after a call of less than a frame: the phase hands over to IDLE (assumption 8). -/
def callEnd : TxOp := fun t => stepArm (fun t => (t, [])) (fun _ => toIdle) t.phase t

/-! ### From a half to the state -/

/-- The observer starts afresh at every operation: its labels and its result are its own. -/
def State.fresh (s : State) : State := { s with labels := [], result := .none }

/-- Emit labels in the current tick (R203, R211). -/
def State.emit (s : State) (ls : List Label) : State :=
  { s with labels := s.labels ++ ls.map (Event.mk s.now) }

/-- Run an operation of the timer and decoder half. -/
def State.onRx (s : State) (f : RxOp) : State := { s with rx := (f s.rx).1 }.emit (f s.rx).2

/-- Run an operation of the transmitter half. -/
def State.onTx (s : State) (f : TxOp) : State := { s with tx := (f s.tx).1 }.emit (f s.tx).2

/-- RESET on the registers and the label (R240). Ticks are numbered from the release of reset (R10). -/
def State.resetTick (s : State) : State :=
  { s with rx := Rx.reset, tx := Tx.reset, now := 0 }.emit [.reset]

/-- Run an operation `n` times. -/
def times (f : State → State) : Nat → State → State
  | 0, s => s
  | n + 1, s => times f n (f s)

end Sys2Proof.Machine
end

