-- ==== Sys2Proof/Machine/Tick.lean ====
section
/-! DEFINITION. One tick: STEP (46_top_level_step.md R200), the tick of the outside world with the host
beside it (R86, 45_host_dispatch.md R191), and the ticks of a transmitter call (44_frame_transmitter.md
R160 to R164). -/

namespace Sys2Proof.Machine

/-- The edge operation of a tick (R82, R200). -/
def edgeTick (level : Bool) : RxOp := fun r =>
  if level != r.remotePrev then (if level then edgeOp riseOp r else edgeOp fallOp r) else (r, [])

/-- `remote_prev <- remote_in` (R200). -/
def samplePrev (level : Bool) : RxOp := fun r => ({ r with remotePrev := level }, [])

/-- The timer and decoder half of STEP, in its order (R200). -/
def rxTick (inp : Inputs) : RxOp :=
  seqRx (whenRx inp.stateClr stateClrOp)
    (seqRx advanceOp (seqRx (edgeTick inp.remoteIn) (samplePrev inp.remoteIn)))

/-- A tick without reset: the timer and decoder half, then a TXSTEP (R200). -/
def runTick (f : TxOp) (inp : Inputs) (s : State) : State :=
  ({ s with inp := inp, now := s.now + 1 }.onRx (rxTick inp)).onTx f

/-- STEP (R200): the inputs are sampled, reset runs alone, otherwise both halves move. -/
def tick (inp : Inputs) (s : State) : State :=
  if inp.rst then { s with inp := inp }.resetTick
  else runTick (txStepOp s.cfg inp) inp s

/-! ### The host beside the stimulus -/

/-- The inputs of a tick with a host request applied (R39, R86). -/
def HostReq.drive (q : HostReq) (i : Inputs) : Inputs :=
  match q with
  | .none => i
  | .tx sel => { i with txStart := true, txSel := sel }
  | .clr => { i with stateClr := true }
  | .reset => { i with rst := true }

/-- The request of a host list in one tick, given `tx_busy` of the tick before (R86, R87). -/
def scriptAct (busy : Bool) : List HostItem → HostReq × List HostItem
  | [] => (.none, [])
  | .wait 0 :: r => scriptAct busy r
  | .wait (n + 1) :: r => (.none, .wait n :: r)
  | .tx sel :: r => (.tx sel, r)
  | .clr :: r => (.clr, r)
  | .reset :: r => (.reset, r)
  | .txw sel :: r => (.tx sel, .waitIdle :: r)
  | .waitIdle :: r => if busy then (.none, .waitIdle :: r) else scriptAct busy r

/-- An iteration of DISPATCH reads `changer_state` and requests its payload (R191). -/
def dispatchRead (cs : Sel) : HostReq × DispatchPc := (.tx cs, .sending cs false)

/-- A tick of the pause before an iteration (R191). -/
def dispatchPause (cs : Sel) : Nat → HostReq × DispatchPc
  | 0 => dispatchRead cs
  | n + 1 => (.none, .pause n)

/-- A tick of the pause before the confirming STOP frame (R191). -/
def dispatchStopPause : Nat → HostReq × DispatchPc
  | 0 => (.tx Config.stStop, .sending Config.stStop true)
  | n + 1 => (.none, .stopPause n)

/-- The reference host in one tick, from the outputs of the tick before (R191). -/
def dispatchAct (c : Cfg) (cs : Sel) (busy : Bool) : DispatchPc → HostReq × DispatchPc
  | .pause n => dispatchPause cs n
  | .stopPause n => dispatchStopPause n
  | .sending s second =>
    if busy then (.none, .sending s second)
    else if second then (.clr, .pause c.tCyclePause)
    else if s = Config.stStop then dispatchStopPause c.tStopPause
    else dispatchPause cs c.tCyclePause

/-- The host in one tick (R190). -/
def hostAct (c : Cfg) (cs : Sel) (busy : Bool) : HostAgent → HostReq × HostAgent
  | .absent => (.none, .absent)
  | .script items => ((scriptAct busy items).1, .script (scriptAct busy items).2)
  | .dispatch pc => ((dispatchAct c cs busy pc).1, .dispatch (dispatchAct c cs busy pc).2)

/-- One tick of the world with `remote_in` at `level`: the host sees the outputs of the tick before. -/
def worldTick (level : Bool) (s : State) : State :=
  tick ((hostAct s.cfg s.rx.cstate s.tx.busy s.host).1.drive { s.restInputs with remoteIn := level })
    { s with host := (hostAct s.cfg s.rx.cstate s.tx.busy s.host).2 }

/-- `HI n` and `LO n`: `n` ticks of the world with `remote_in` held (R86). -/
def holdLevel (level : Bool) (n : Nat) (s : State) : State := times (worldTick level) n s

/-- `WAIT n`: the level of `remote_in` is kept (R86). -/
def holdOn (n : Nat) (s : State) : State := holdLevel s.inp.remoteIn n s

/-- `WAIT` until `tx_busy` = 0, at most `n` ticks (R87). -/
def waitWhileBusy : Nat → State → State
  | 0, s => s
  | n + 1, s => if s.tx.busy then waitWhileBusy n (worldTick s.inp.remoteIn s) else s

/-! ### The transmitter as a call -/

/-- A tick of STEP in which no item names an input (R86). -/
def plainTick (s : State) : State := tick s.restInputs s

/-- The first `n + 1` ticks of a call that sends `p` from its byte `i`, bit `j`: TXSTEP takes the call in
IDLE and then runs, the timer and decoder half beside it (R160, R170, R194). -/
def callTicks (p : Payload) (i j : BitVec 3) (n : Nat) (s : State) : State :=
  times plainTick n (runTick (callBegin s.cfg p i j) s.restInputs s)

/-- The tick after the waveform of a bit or of a plain byte. -/
def endTick (s : State) : State := runTick callEnd s.restInputs s

/-- A call with the waveform `w`: it shows `w`, then the sequencer is back in IDLE in the tick `leave`. It
blocks the host; a call cannot begin while a frame is running (R169), so in that case it has no effect. -/
def txCall (w : List Seg) (p : Payload) (i j : BitVec 3) (leave : State → State) (s : State) : State :=
  if s.tx.busy then s else { leave (callTicks p i j (waveTicks w - 1) s) with result := .wave w }

end Sys2Proof.Machine
end

