-- ==== Sys2Proof/Machine/Cword.lean ====
section
/-! DEFINITION. The CWORD operations: the two arms of COMPLETE for a word of each row (30_encoding.md
R75, 42_remote_decoder.md R134, 43_changer_state.md R150). CTXRESET is COMPLETE's own, after the arm. -/

namespace Sys2Proof.Machine

/-- CMD_SELECT_A: the valid word of command byte 0x08 (R75, R150). -/
def execCmdSelectA (s : State) : Host.Outcome State Fault Refusal :=
  .next (s.fresh.onRx (acceptWord Config.cmdSelectA))

/-- CMD_SELECT_B: the valid word of command byte 0xA4 (R75, R150). -/
def execCmdSelectB (s : State) : Host.Outcome State Fault Refusal :=
  .next (s.fresh.onRx (acceptWord Config.cmdSelectB))

/-- CMD_DESELECT: the valid word of command byte 0x10 (R75, R150). -/
def execCmdDeselect (s : State) : Host.Outcome State Fault Refusal :=
  .next (s.fresh.onRx (acceptWord Config.cmdDeselect))

/-- CMD_RESERVED: a valid word with any other command byte, "accepted as well-formed" (R84, R150). -/
def execCmdReserved (c : Byte) (s : State) : Host.Outcome State Fault Refusal :=
  .next (s.fresh.onRx (acceptWord c))

/-- WORD_INVALID: "frame discarded, no state change, no report" (R84, R134). -/
def execWordInvalid (w : CmdWord) (s : State) : Host.Outcome State Fault Refusal :=
  .next (s.fresh.onRx (discardWord w))

end Sys2Proof.Machine
end

