-- ==== Sys2Proof/Machine/Edge.lean ====
section
/-! DEFINITION. The EDGE operations: what a tick does after ADVANCE for each edge vector (30_encoding.md
R82). -/

namespace Sys2Proof.Machine

/-- NOEDGE, line low: nothing more (R82). -/
def execNoedgeLo (s : State) : Host.Outcome State Fault Refusal := .next s.fresh

/-- NOEDGE, line high: nothing more (R82). -/
def execNoedgeHi (s : State) : Host.Outcome State Fault Refusal := .next s.fresh

/-- RISE(ELAPSED), then TMRCLR (R82, R127, R114). -/
def execRise (s : State) : Host.Outcome State Fault Refusal := .next (s.fresh.onRx (edgeOp riseOp))

/-- FALL(ELAPSED), then TMRCLR (R82, R126, R114). -/
def execFall (s : State) : Host.Outcome State Fault Refusal := .next (s.fresh.onRx (edgeOp fallOp))

end Sys2Proof.Machine
end

