-- ==== Sys2Proof/Machine/Func.lean ====
section
/-! DEFINITION. The FUNC operations: the functions with a value (the value is the step's result; no
register changes) and the shared decoder operations (30_encoding.md R88). -/

namespace Sys2Proof.Machine

/-- Answer a value and change no register. -/
def returns (v : Result) (s : State) : State := { s.fresh with result := v }

/-- VALID(w) (R135). -/
def execValid (w : CmdWord) (s : State) : Host.Outcome State Fault Refusal :=
  .next (returns (.bit (validWord w)) s)

/-- ELAPSED (R110). -/
def execElapsed (s : State) : Host.Outcome State Fault Refusal :=
  .next (returns (.ticks (elapsedOf s.rx)) s)

/-- WITHIN(m, n) (R100). -/
def execWithin (m n : Dur) (s : State) : Host.Outcome State Fault Refusal :=
  .next (returns (.bit (within m.toNat n.toNat)) s)

/-- CTXRESET (R125). -/
def execCtxReset (s : State) : Host.Outcome State Fault Refusal :=
  .next (s.fresh.onRx fun r => (ctxReset r, []))

/-- COMPLETE (R134). -/
def execComplete (s : State) : Host.Outcome State Fault Refusal := .next (s.fresh.onRx completeOp)

/-- COMMAND(c) (R150). -/
def execCommand (c : Byte) (s : State) : Host.Outcome State Fault Refusal :=
  .next (s.fresh.onRx fun r => (command c r, []))

end Sys2Proof.Machine
end

