-- ==== Sys2Proof/Machine/HostProg.lean ====
section
/-! DEFINITION. The HOSTPROG operation: the reference host starts and from then on acts in every tick of
the world (45_host_dispatch.md R191). -/

namespace Sys2Proof.Machine

/-- DISPATCH: the host begins its settle delay; "This loop never terminates", so it runs beside whatever
the stimulus does next (R191). -/
def execDispatch (s : State) : Host.Outcome State Fault Refusal :=
  .next { s.fresh with host := .dispatch (.pause s.cfg.tSettle) }

end Sys2Proof.Machine
end

