-- ==== Sys2Proof/Machine/Phase.lean ====
section
/-! DEFINITION. The ENUM operations on tx_phase: the arm of TXSTEP that each phase code selects
(44_frame_transmitter.md R166, R167). An arm runs only in its own phase. -/

namespace Sys2Proof.Machine

/-- The arm of phase `p`, taken when the sequencer is in that phase. -/
def inPhase (p : TxPhase) (s : State) : State :=
  s.fresh.onTx fun t => if t.phase = p then phaseArm s.cfg s.inp p t else (t, [])

/-- IDLE: wait for a request (R166, R169). -/
def execPhaseIdle (s : State) : Host.Outcome State Fault Refusal := .next (inPhase .idle s)

/-- CLK_HI (R166). -/
def execPhaseClkHi (s : State) : Host.Outcome State Fault Refusal := .next (inPhase .clkHi s)

/-- CLK_LO (R166). -/
def execPhaseClkLo (s : State) : Host.Outcome State Fault Refusal := .next (inPhase .clkLo s)

/-- STB_SETUP (R166). -/
def execPhaseStbSetup (s : State) : Host.Outcome State Fault Refusal := .next (inPhase .stbSetup s)

/-- STB_LOW (R166). -/
def execPhaseStbLow (s : State) : Host.Outcome State Fault Refusal := .next (inPhase .stbLow s)

/-- STB_HOLD (R166). -/
def execPhaseStbHold (s : State) : Host.Outcome State Fault Refusal := .next (inPhase .stbHold s)

/-- BYTE_GAP (R166). -/
def execPhaseByteGap (s : State) : Host.Outcome State Fault Refusal := .next (inPhase .byteGap s)

/-- INTERBYTE (R166). -/
def execPhaseInterbyte (s : State) : Host.Outcome State Fault Refusal := .next (inPhase .interbyte s)

end Sys2Proof.Machine
end

