-- ==== Sys2Proof/Machine/Rom.lean ====
section
/-! DEFINITION. The PAYLOAD operations, the eight reads of a payload constant, and the ENUM operations
on cstate and tx_sel, whose value is the code (20_memory.md R51 to R53, 30_encoding.md R81, R83). -/

namespace Sys2Proof.Machine

/-- The value of a payload read: no side effect (R53). -/
def payloadResult (sel : Sel) : Result :=
  match readPayload sel with
  | some p => .payload p
  | none => .none

/-- PAYLOAD_INIT (R51). -/
def execPayloadInit (s : State) : Host.Outcome State Fault Refusal :=
  .next (returns (payloadResult Config.stInit) s)

/-- PAYLOAD_PLAY (R51). -/
def execPayloadPlay (s : State) : Host.Outcome State Fault Refusal :=
  .next (returns (payloadResult Config.stPlay) s)

/-- PAYLOAD_STOP (R51). -/
def execPayloadStop (s : State) : Host.Outcome State Fault Refusal :=
  .next (returns (payloadResult Config.stStop) s)

/-- CSTATE_INIT: the code of INIT (R83). -/
def execCstateInit (s : State) : Host.Outcome State Fault Refusal :=
  .next (returns (.code Config.stInit) s)

/-- CSTATE_PLAY: the code of PLAY (R83). -/
def execCstatePlay (s : State) : Host.Outcome State Fault Refusal :=
  .next (returns (.code Config.stPlay) s)

/-- CSTATE_STOP: the code of STOP (R83). -/
def execCstateStop (s : State) : Host.Outcome State Fault Refusal :=
  .next (returns (.code Config.stStop) s)

/-- CSTATE_RESERVED: the code 3, which no rule writes into cstate and which TXSTART refuses (R83, R84). -/
def execCstateReserved (s : State) : Host.Outcome State Fault Refusal :=
  .next (returns (.code Config.stReserved) s)

end Sys2Proof.Machine
end

