-- ==== Sys2Proof/Machine/Stimulus.lean ====
section
/-! DEFINITION. The RFRAME and STIMULUS operations: input waveforms and host requests, tick by tick
(30_encoding.md R73, R86, R87). -/

namespace Sys2Proof.Machine

/-- `PULSE h l`: `HI h; LO l` (R87). -/
def runPulse (h l : Nat) (s : State) : State := holdLevel false l (holdLevel true h s)

/-- The `START` pseudo-item (R87). -/
def runStart (s : State) : State := runPulse Config.nStartMark Config.nStartSpace s

/-- `B1` or `B0` (R87). -/
def runBit (b : Bool) (s : State) : State :=
  runPulse Config.nBitMark (if b then Config.nOneSpace else Config.nZeroSpace) s

/-- The bits of a word, bit 31 first (R58, R87). -/
def bitsOfWord (w : CmdWord) : List Bool := (List.range 32).map fun i => w.getMsbD i

/-- `WORD w` (R87). -/
def runWord (w : CmdWord) (s : State) : State := (bitsOfWord w).foldl (fun s b => runBit b s) (runStart s)

/-- The valid word of a command byte (R74, R75). -/
def cmdWord (c : Byte) : CmdWord := Config.sync ++ (c ++ (c ^^^ 0xFF))

/-- One tick with `tx_start` = 1 (R86). -/
def requestTick (sel : Sel) (s : State) : State :=
  tick { s.restInputs with txStart := true, txSel := sel } s

/-- A remote frame: start symbol, data symbols, closing mark (R73). -/
def runFrame (startMark startSpace : Dur) (data : List (Dur × Dur)) (closing : Dur) (s : State) : State :=
  holdLevel true closing.toNat
    (data.foldl (fun s p => runPulse p.1.toNat p.2.toNat s)
      (runPulse startMark.toNat startSpace.toNat s))

/-- RFRAME (R73). -/
def execRframe (startMark startSpace : Dur) (data : List (Dur × Dur)) (closing : Dur) (s : State) :
    Host.Outcome State Fault Refusal := .next (runFrame startMark startSpace data closing s.fresh)

/-- `HI n` (R86). -/
def execHi (n : Nat) (s : State) : Host.Outcome State Fault Refusal := .next (holdLevel true n s.fresh)

/-- `LO n` (R86). -/
def execLo (n : Nat) (s : State) : Host.Outcome State Fault Refusal := .next (holdLevel false n s.fresh)

/-- `TX s` (R86). -/
def execTx (sel : Sel) (s : State) : Host.Outcome State Fault Refusal := .next (requestTick sel s.fresh)

/-- `CLR` (R86). -/
def execClr (s : State) : Host.Outcome State Fault Refusal :=
  .next (tick { s.restInputs with stateClr := true } s.fresh)

/-- `WAIT n` (R86). -/
def execWait (n : Nat) (s : State) : Host.Outcome State Fault Refusal := .next (holdOn n s.fresh)

/-- `PULSE h l` (R87). -/
def execPulse (h l : Nat) (s : State) : Host.Outcome State Fault Refusal := .next (runPulse h l s.fresh)

/-- `START`, the pseudo-item (R87). -/
def execStartItem (s : State) : Host.Outcome State Fault Refusal := .next (runStart s.fresh)

/-- `B1` (R87). -/
def execB1 (s : State) : Host.Outcome State Fault Refusal := .next (runBit true s.fresh)

/-- `B0` (R87). -/
def execB0 (s : State) : Host.Outcome State Fault Refusal := .next (runBit false s.fresh)

/-- `WORD w` (R87). -/
def execWord (w : CmdWord) (s : State) : Host.Outcome State Fault Refusal := .next (runWord w s.fresh)

/-- `CMD c` (R87). -/
def execCmd (c : Byte) (s : State) : Host.Outcome State Fault Refusal :=
  .next (runWord (cmdWord c) s.fresh)

/-- `CLOSE`: `HI 650` (R87). -/
def execClose (s : State) : Host.Outcome State Fault Refusal :=
  .next (holdLevel true Config.nBitMark s.fresh)

/-- `IDLE n`: `LO n` (R87). -/
def execIdle (n : Nat) (s : State) : Host.Outcome State Fault Refusal :=
  .next (holdLevel false n s.fresh)

/-- `TXW s`: `TX s`, then `WAIT` until `tx_busy` = 0, that is `T_FRAME` ticks (R87). -/
def execTxw (sel : Sel) (s : State) : Host.Outcome State Fault Refusal :=
  .next (waitWhileBusy (tFrame s.cfg) (requestTick sel s.fresh))

end Sys2Proof.Machine
end

