-- ==== Sys2Proof/Machine/Symbol.lean ====
section
/-! DEFINITION. The SYMBOL operations: the branches of RISE (42_remote_decoder.md R128 to R133).
COMPLETE follows a bit inside RISE, not inside the bit (R127). -/

namespace Sys2Proof.Machine

/-- START (R128). -/
def execStart (s : State) : Host.Outcome State Fault Refusal := .next (s.fresh.onRx startOp)

/-- REJECT_IDLE (R129). -/
def execRejectIdle (s : State) : Host.Outcome State Fault Refusal :=
  .next (s.fresh.onRx (rejectWith .rejectIdle))

/-- REJECT_MARK (R130). -/
def execRejectMark (s : State) : Host.Outcome State Fault Refusal :=
  .next (s.fresh.onRx (rejectWith .rejectMark))

/-- BIT1 (R131). -/
def execBit1 (s : State) : Host.Outcome State Fault Refusal := .next (s.fresh.onRx (bitOp true))

/-- BIT0 (R132). -/
def execBit0 (s : State) : Host.Outcome State Fault Refusal := .next (s.fresh.onRx (bitOp false))

/-- REJECT_SPACE (R133). -/
def execRejectSpace (s : State) : Host.Outcome State Fault Refusal :=
  .next (s.fresh.onRx (rejectWith .rejectSpace))

end Sys2Proof.Machine
end

