-- ==== Sys2Proof/Machine/TickHost.lean ====
section
/-! DEFINITION. The TICK operations, STEP and the unconditional operations of a tick, and the HOST
operations (30_encoding.md R88). -/

namespace Sys2Proof.Machine

/-- STEP with the inputs of the tick (R200). -/
def execStep (inp : Inputs) (s : State) : Host.Outcome State Fault Refusal := .next (tick inp s.fresh)

/-- TXSTEP on the inputs last sampled (R167). -/
def execTxStep (s : State) : Host.Outcome State Fault Refusal :=
  .next (s.fresh.onTx (txStepOp s.cfg s.inp))

/-- ADVANCE (R111). -/
def execAdvance (s : State) : Host.Outcome State Fault Refusal := .next (s.fresh.onRx advanceOp)

/-- OVF (R112). -/
def execOvf (s : State) : Host.Outcome State Fault Refusal := .next (s.fresh.onRx ovfOp)

/-- TIMEOUT (R113). -/
def execTimeout (s : State) : Host.Outcome State Fault Refusal := .next (s.fresh.onRx timeoutOp)

/-- TMRCLR (R114). -/
def execTmrClr (s : State) : Host.Outcome State Fault Refusal :=
  .next (s.fresh.onRx fun r => (tmrClr r, []))

/-- RESET: one tick with `rst` = 1 (R240). -/
def execReset (s : State) : Host.Outcome State Fault Refusal :=
  .next (tick { s.restInputs with rst := true } s.fresh)

/-- STATECLR (R151). -/
def execStateClr (s : State) : Host.Outcome State Fault Refusal := .next (s.fresh.onRx stateClrOp)

/-- TXSTART: accepted in IDLE with a select other than 3 (R165); otherwise the request is refused (R169). -/
def execTxStart (sel : Sel) (s : State) : Host.Outcome State Fault Refusal :=
  .next (s.fresh.onTx (txRequest true sel))

/-- A refused request: "no state changes because of it, and it is not remembered" (R169). DESIGN CHOICE
(assumption 17): the row is the refusal itself, so run in IDLE with a select of 0 to 2, where R165 would
accept a request, it has no effect either. -/
def execTxStartRefused (_sel : Sel) (s : State) : Host.Outcome State Fault Refusal := .next s.fresh

end Sys2Proof.Machine
end

