-- ==== Sys2Proof/Machine/Waveform.lean ====
section
/-! DEFINITION. The waveforms of the transmitter calls (44_frame_transmitter.md R160 to R164). -/

namespace Sys2Proof.Machine

/-- `TXBIT(b)` (R161). -/
def waveBit (b : Bool) : List Seg :=
  [⟨some b, true, true, Config.tClkHigh.toNat⟩, ⟨some b, false, true, Config.tClkLow.toNat⟩]

/-- The eight cells of a byte, bit 7 first (R57, R162). -/
def waveCells (v : Byte) : List Seg :=
  waveBit (v.getLsbD 7) ++ waveBit (v.getLsbD 6) ++ waveBit (v.getLsbD 5) ++ waveBit (v.getLsbD 4) ++
    waveBit (v.getLsbD 3) ++ waveBit (v.getLsbD 2) ++ waveBit (v.getLsbD 1) ++ waveBit (v.getLsbD 0)

/-- A stretch of rest: CLOCK low, STROBE high, DATA held. -/
def waveRest (n : Nat) : Seg := ⟨none, false, true, n⟩

/-- `TXBYTE(v, true)` (R162). -/
def waveFramed (c : Cfg) (v : Byte) : List Seg :=
  waveCells v ++ [waveRest Config.tStrobeSetup.toNat, ⟨none, false, false, Config.tStrobeLow.toNat⟩,
    waveRest c.tStrobeHold.toNat]

/-- `TXBYTE(v, false)` (R163). -/
def wavePlain (c : Cfg) (v : Byte) : List Seg := waveCells v ++ [waveRest c.tByteGap.toNat]

/-- `TXFRAME(p)` (R164). -/
def waveFrame (c : Cfg) (p : Payload) : List Seg :=
  waveFramed c (payByte p 0) ++ [waveRest c.tInterbyte.toNat] ++
  wavePlain c (payByte p 1) ++ [waveRest c.tInterbyte.toNat] ++
  wavePlain c (payByte p 2) ++ [waveRest c.tInterbyte.toNat] ++
  wavePlain c (payByte p 3) ++ [waveRest c.tInterbyte.toNat] ++
  wavePlain c (payByte p 4) ++ [waveRest c.tInterbyte.toNat] ++
  wavePlain c (payByte p 5) ++ [waveRest c.tInterbyte.toNat] ++
  wavePlain c (payByte p 6) ++ [waveRest c.tInterbyte.toNat] ++
  waveFramed c (payByte p 7)

/-- The levels a waveform shows, tick by tick, when DATA was `d` before it (R160). -/
def waveLines (d : Bool) : List Seg → List Lines
  | [] => []
  | g :: gs => List.replicate g.ticks ⟨g.data.getD d, g.clock, g.strobe⟩ ++ waveLines (g.data.getD d) gs

/-- The reference receiver (R172): from the level of CLOCK before the first tick, the DATA bits at the
falling edges of CLOCK, in order. -/
def received (clockBefore : Bool) : List Lines → List Bool
  | [] => []
  | l :: ls => if clockBefore && !l.clock then l.data :: received l.clock ls else received l.clock ls

end Sys2Proof.Machine
end

