-- ==== Sys2Proof/Machine/TxCall.lean ====
section
/-! DEFINITION. The TXCELL, TXBYTE and TXFRAME operations: the transmitter as a call, run by the sequencer
(44_frame_transmitter.md R161 to R164, R170). A frame and a framed byte end as TXSTEP ends byte 7; a bit
and a plain byte are parts of a frame, and the sequencer goes back to IDLE after them (assumption 8). -/

namespace Sys2Proof.Machine

/-- TXBIT(b) (R161): the operand is latched as bit 0 of byte 7. -/
def execTxBit (b : Bool) (s : State) : Host.Outcome State Fault Refusal :=
  .next (txCall (waveBit b) ((BitVec.ofBool b).setWidth 64) 7 0 endTick s.fresh)

/-- TXBYTE(v, framed = true) (R162): the operand is latched as byte 7. -/
def execTxByteFramed (v : Byte) (s : State) : Host.Outcome State Fault Refusal :=
  .next (txCall (waveFramed s.cfg v) (v.setWidth 64) 7 7 plainTick s.fresh)

/-- TXBYTE(v, framed = false) (R163): the operand is latched as byte 6. -/
def execTxBytePlain (v : Byte) (s : State) : Host.Outcome State Fault Refusal :=
  .next (txCall (wavePlain s.cfg v) (v.setWidth 64 <<< 8) 6 7 endTick s.fresh)

/-- TXFRAME(p) (R164). -/
def execTxFrame (p : Payload) (s : State) : Host.Outcome State Fault Refusal :=
  .next (txCall (waveFrame s.cfg p) p 0 7 plainTick s.fresh)

end Sys2Proof.Machine
end

