-- ==== Sys2Proof/Machine/Dispatch.lean ====
section
/-! DEFINITION. One arm per operation: the meaning each constructor of `Instr` has. -/

namespace Sys2Proof.Machine

def exec (i : Instr) (s : State) : Host.Outcome State Fault Refusal :=
  match i with
  -- EDGE (R82)
  | .noedgeLo => Sys2Proof.Machine.execNoedgeLo s
  | .noedgeHi => Sys2Proof.Machine.execNoedgeHi s
  | .rise => Sys2Proof.Machine.execRise s
  | .fall => Sys2Proof.Machine.execFall s
  -- SYMBOL (R72)
  | .start => Sys2Proof.Machine.execStart s
  | .rejectIdle => Sys2Proof.Machine.execRejectIdle s
  | .rejectMark => Sys2Proof.Machine.execRejectMark s
  | .bit1 => Sys2Proof.Machine.execBit1 s
  | .bit0 => Sys2Proof.Machine.execBit0 s
  | .rejectSpace => Sys2Proof.Machine.execRejectSpace s
  -- CWORD (R74, R75)
  | .cmdSelectA => Sys2Proof.Machine.execCmdSelectA s
  | .cmdSelectB => Sys2Proof.Machine.execCmdSelectB s
  | .cmdDeselect => Sys2Proof.Machine.execCmdDeselect s
  | .cmdReserved c => Sys2Proof.Machine.execCmdReserved c s
  | .wordInvalid w => Sys2Proof.Machine.execWordInvalid w s
  -- FUNC: VALID stands here in the table
  | .valid w => Sys2Proof.Machine.execValid w s
  -- PAYLOAD (R81)
  | .payloadInit => Sys2Proof.Machine.execPayloadInit s
  | .payloadPlay => Sys2Proof.Machine.execPayloadPlay s
  | .payloadStop => Sys2Proof.Machine.execPayloadStop s
  -- ENUM (R83, R166)
  | .cstateInit => Sys2Proof.Machine.execCstateInit s
  | .cstatePlay => Sys2Proof.Machine.execCstatePlay s
  | .cstateStop => Sys2Proof.Machine.execCstateStop s
  | .cstateReserved => Sys2Proof.Machine.execCstateReserved s
  | .phaseIdle => Sys2Proof.Machine.execPhaseIdle s
  | .phaseClkHi => Sys2Proof.Machine.execPhaseClkHi s
  | .phaseClkLo => Sys2Proof.Machine.execPhaseClkLo s
  | .phaseStbSetup => Sys2Proof.Machine.execPhaseStbSetup s
  | .phaseStbLow => Sys2Proof.Machine.execPhaseStbLow s
  | .phaseStbHold => Sys2Proof.Machine.execPhaseStbHold s
  | .phaseByteGap => Sys2Proof.Machine.execPhaseByteGap s
  | .phaseInterbyte => Sys2Proof.Machine.execPhaseInterbyte s
  -- TXCELL, TXBYTE, TXFRAME (R161 to R164): the transmitter as a call
  | .txBit b => Sys2Proof.Machine.execTxBit b s
  | .txByteFramed v => Sys2Proof.Machine.execTxByteFramed v s
  | .txBytePlain v => Sys2Proof.Machine.execTxBytePlain v s
  | .txFrame p => Sys2Proof.Machine.execTxFrame p s
  -- RFRAME (R73): start mark and space, the data symbols as (mark, space), the closing mark
  | .rframe startMark startSpace data closing => Sys2Proof.Machine.execRframe startMark startSpace data closing s
  -- TICK and HOST
  | .step inp => Sys2Proof.Machine.execStep inp s
  | .reset => Sys2Proof.Machine.execReset s
  | .stateClr => Sys2Proof.Machine.execStateClr s
  | .txStart sel => Sys2Proof.Machine.execTxStart sel s
  | .txStartRefused sel => Sys2Proof.Machine.execTxStartRefused sel s
  | .txStep => Sys2Proof.Machine.execTxStep s
  | .advance => Sys2Proof.Machine.execAdvance s
  | .ovf => Sys2Proof.Machine.execOvf s
  | .timeout => Sys2Proof.Machine.execTimeout s
  | .tmrClr => Sys2Proof.Machine.execTmrClr s
  -- FUNC
  | .elapsed => Sys2Proof.Machine.execElapsed s
  | .within m n => Sys2Proof.Machine.execWithin m n s
  | .ctxReset => Sys2Proof.Machine.execCtxReset s
  | .complete => Sys2Proof.Machine.execComplete s
  | .command c => Sys2Proof.Machine.execCommand c s
  -- STIMULUS (R86, R87)
  | .hi n => Sys2Proof.Machine.execHi n s
  | .lo n => Sys2Proof.Machine.execLo n s
  | .tx sel => Sys2Proof.Machine.execTx sel s
  | .clr => Sys2Proof.Machine.execClr s
  | .wait n => Sys2Proof.Machine.execWait n s
  | .pulse h l => Sys2Proof.Machine.execPulse h l s
  | .startItem => Sys2Proof.Machine.execStartItem s
  | .b1 => Sys2Proof.Machine.execB1 s
  | .b0 => Sys2Proof.Machine.execB0 s
  | .word w => Sys2Proof.Machine.execWord w s
  | .cmd c => Sys2Proof.Machine.execCmd c s
  | .close => Sys2Proof.Machine.execClose s
  | .idle n => Sys2Proof.Machine.execIdle n s
  | .txw sel => Sys2Proof.Machine.execTxw sel s
  -- HOSTPROG (R191)
  | .dispatch => Sys2Proof.Machine.execDispatch s

end Sys2Proof.Machine
end

