-- ==== Sys2Proof/Machine/Fetch.lean ====
section
/-! DEFINITION. Where the next operation comes from: the stimulus bytes (30_encoding.md R86). The block
fetches no instructions (10_state.md R41). -/

namespace Sys2Proof.Machine

/-- The next operation and the state with its bytes taken off the stimulus. -/
def fetch (s : State) : Except Reject (Instr × State) :=
  (decode s.stim).map fun p => (p.1, { s with stim := p.2 })

/-- A step with no stimulus left: the block runs forever (R205), so one tick passes with nothing named. -/
def restStep (s : State) : State := worldTick s.inp.remoteIn s.fresh

/-- The state with the bytes of an opcode-table word as its stimulus. -/
def placeTableWord (s : State) (nbits w : Nat) : State := { s with stim := tableBytes nbits w }

end Sys2Proof.Machine
end

