-- ==== Sys2Proof/Machine/Step.lean ====
section
/-! DEFINITION. One step of the model: the next operation of the stimulus, or one tick at rest when the
stimulus is empty. -/

namespace Sys2Proof.Machine

/-- One step. -/
def step (s : State) : Host.Outcome State Fault Refusal :=
  match s.stim with
  | [] => .next (restStep s)
  | _ :: _ =>
    match fetch s with
    | .ok p => exec p.1 p.2
    | .error why => .refused (.notAStimulus why)

/-- A state whose next step runs the operation of an opcode-table word. A stimulus is loaded from outside
the block (assumption 6). -/
def State.withFetchWord (s : State) (nbits w : Nat) : State := placeTableWord s nbits w

end Sys2Proof.Machine
end

