-- ==== Sys2Proof/Safety.lean ====
section
/-! DEFINITION. The terms the statements use: the invariants of 10_state.md R46, the path of the
sequencer, runs of several operations, and what a command word does to the changer state. -/

namespace Sys2Proof.Machine

/-! ### Invariants -/

/-- R46 (a) to (e): the tally, the bit count, the idle decoder, the buffer, the changer state. -/
abbrev Rx.Inv (r : Rx) : Prop :=
  r.ovf.toNat ≤ 253 ∧ r.nbits.toNat ≤ 31 ∧
  (r.decoding = false → r.nbits = 0 ∧ r.cmdBuf = 0) ∧
  r.cmdBuf.toNat < 2 ^ r.nbits.toNat ∧ r.cstate ≠ 3

/-- R46 (f) and (g): the phase, its counter and the lines. -/
abbrev Tx.Inv (t : Tx) : Prop :=
  (t.phase = .idle ↔ t.dly = 0) ∧ (t.phase = .idle → t.clockOut = false ∧ t.strobeOut = true) ∧
  (t.strobeOut = false ↔ t.phase = .stbLow) ∧ (t.clockOut = true ↔ t.phase = .clkHi)

/-- The invariants of the block, in a legal configuration. -/
abbrev State.Inv (s : State) : Prop := s.rx.Inv ∧ s.tx.Inv ∧ s.cfg.wf

/-- Where the sequencer can stand (R167 "Corner cases"): BYTE_GAP only after bytes 1 to 6, the strobe
phases only after bytes 0 and 7, INTERBYTE never after byte 7, and a tail only after bit 0. -/
abbrev Tx.OnPath (t : Tx) : Prop :=
  (t.phase = .byteGap → t.byte ≠ 0 ∧ t.byte ≠ 7) ∧
  (t.phase = .stbSetup ∨ t.phase = .stbLow ∨ t.phase = .stbHold → t.byte = 0 ∨ t.byte = 7) ∧
  (t.phase = .interbyte → t.byte ≠ 7) ∧
  (t.phase ≠ .idle → t.phase ≠ .clkHi → t.phase ≠ .clkLo → t.bit = 0)

/-- A state in which a bit may be taken: RISE takes one only in DECODING, with fewer than 32 held (R127). -/
abbrev Rx.takesBit (r : Rx) : Prop := r.decoding = true ∧ r.nbits.toNat ≤ 30

/-! ### Runs and their labels -/

/-- Operations one after another, with all their labels. -/
def play : List Instr → State → Option State
  | [], s => some s.fresh
  | i :: is, s =>
    match exec i s with
    | .next t => (play is t).map fun u => { u with labels := t.labels ++ u.labels }
    | .fault _ => none
    | .refused _ => none

/-- The labels of the last operation, without their tick numbers. -/
def State.said (s : State) : List Label := s.labels.map fun e => e.label

/-- A label of the transmitter. -/
def Label.ofTx : Label → Bool
  | .txStart _ => true
  | .txDone => true
  | _ => false

/-- A label of the transmitter or of the host's clear. -/
def Label.ofHostSide : Label → Bool
  | .txStart _ => true
  | .txDone => true
  | .stateClr => true
  | _ => false

/-- A label of COMPLETE. -/
def Label.ofComplete : Label → Bool
  | .doneValid _ => true
  | .doneInvalid _ => true
  | _ => false

/-! ### The values the statements compare with -/

/-- The elapsed time as a number (R110). -/
def Rx.time (r : Rx) : Nat := 256 * r.ovf.toNat + r.cnt.toNat

/-- The changer state after a valid word with command byte `c` (R150, R153). -/
def afterCommand (c : Byte) (st : BitVec 2) : BitVec 2 :=
  if c = 0x08 ∨ c = 0xA4 then 1 else if c = 0x10 then 2 else st

/-- The changer state after a full word (R134). -/
def afterWord (w : CmdWord) (st : BitVec 2) : BitVec 2 :=
  if validWord w then afterCommand (wordCmd w) st else st

/-- The label of COMPLETE for a word (R134). -/
def doneLabel (w : CmdWord) : Label := if validWord w then .doneValid (wordCmd w) else .doneInvalid w

/-- The word carried by a list of data symbols, first symbol most significant (R58, R76). -/
def wordOfSymbols (data : List (Dur × Dur)) : CmdWord :=
  data.foldl (fun w p => (w <<< 1) ||| (BitVec.ofBool (isOneSpace p.2)).setWidth 32) 0

/-- The payload of a select (R51). -/
def payloadOf (sel : Sel) : Payload :=
  if sel = 0 then 0x73FFFFFFFFFF7F7B else if sel = 1 then 0x33FFCF81CF7F7F3B else 0x13FFFFFFFFFF7F1B

/-- The context cleared (R125). -/
abbrev Rx.contextZero (r : Rx) : Prop :=
  r.ovf = 0 ∧ r.hiDur = 0 ∧ r.loDur = 0 ∧ r.decoding = false ∧ r.nbits = 0 ∧ r.cmdBuf = 0

/-- No host acts and the line does not move while its level is kept. -/
abbrev State.quiet (s : State) : Prop := s.host = .absent ∧ s.inp.remoteIn = s.rx.remotePrev

/-- A word's symbols as stimulus items (R87). -/
def itemsOfWord (w : CmdWord) : List Instr :=
  .startItem :: (List.range 32).map fun i => if w.getLsbD (31 - i) then .b1 else .b0

/-- The ticks of a call show its waveform: `k` ticks after its first the lines are those at offset `k`, the
block is busy and the transmitter's invariants hold (R46, R160). -/
abbrev ShowsWave (w : List Seg) (p : Payload) (i j : BitVec 3) (s : State) : Prop :=
  ∀ k < waveTicks w,
    (waveLines s.tx.dataOut w)[k]? = some (callTicks p i j k s).tx.lines ∧
    (callTicks p i j k s).tx.busy = true ∧ (callTicks p i j k s).tx.Inv

/-- The transmitter at rest after a call that sent `p` up to its byte `i`, bit 0 (R168). -/
def restAfter (p : Payload) (i : BitVec 3) : Tx :=
  { phase := .idle, dly := 0, byte := i, bit := 0, pay := p, dataOut := payBit p i 0
    clockOut := false, strobeOut := true }

/-- Offset of the first tick of byte 7 (R171). -/
def byte7Offset (c : Cfg) : Nat := lenFramed c + 6 * lenPlain c + 7 * c.tInterbyte.toNat

end Sys2Proof.Machine
end

