-- ==== Sys2Proof/Certificates/Slice0/Obligations.lean ====
section
/-! DEFINITION. The statements for the provers. Each formalises rules of spec/ named in its docstring; a
clause that rests on a choice of the model says so and names the assumption. -/

open Sys2Proof Sys2Proof.Machine

/-! ### Encoding, fetching, stepping -/

/-- Decoding an encoded well-formed operation gives it back, with every operand, and leaves the bytes after
it. The byte form is the model's (assumption 4); the code bits are the table's (R72, R75, R82, R83, R88). -/
def Obligations.DecodeOfEncodeIsTheOperation : Prop :=
  ∀ (i : Instr) (rest : List Byte), i.wellFormed = true → decode (encode i ++ rest) = .ok (i, rest)

/-- A symbol code, a command word, an edge vector and the enumerations decode as their tables say, on words
written out from R72, R75, R82 and R83. -/
def Obligations.TableWordsDecodeToTheirRows : Prop :=
  decodeEdge 0b00 = .noedgeLo ∧ decodeEdge 0b01 = .rise ∧ decodeEdge 0b10 = .fall ∧
  decodeEdge 0b11 = .noedgeHi ∧
  decodeSymbol 0b1011 false = .start ∧ decodeSymbol 0b1011 true = .start ∧
  decodeSymbol 0b0110 false = .rejectIdle ∧ decodeSymbol 0b0110 true = .bit1 ∧
  decodeSymbol 0b0101 true = .bit0 ∧ decodeSymbol 0b0111 true = .rejectSpace ∧
  decodeSymbol 0b0010 true = .rejectMark ∧
  decodeCword 0x532C08F7 = .cmdSelectA ∧ decodeCword 0x532CA45B = .cmdSelectB ∧
  decodeCword 0x532C10EF = .cmdDeselect ∧ decodeCword 0x532C20DF = .cmdReserved 0x20 ∧
  decodeCword 0x532CA45A = .wordInvalid 0x532CA45A ∧
  decodePayload 0x33FFCF81CF7F7F3B = some .payloadPlay ∧
  decodeCstate 2 = .cstateStop ∧ decodePhase 7 = .phaseInterbyte

/-- One step runs the operation at the head of the stimulus, with its bytes taken off; with no stimulus it
is `WAIT 1`; bytes that name no operation are refused. The stimulus is the model's (assumptions 4, 6). -/
def Obligations.StepRunsTheOperationAtTheHead : Prop :=
  ∀ s : State,
    (s.stim = [] → step s = exec (.wait 1) s) ∧
    (∀ i rest, decode s.stim = .ok (i, rest) → step s = exec i { s with stim := rest }) ∧
    (∀ why, s.stim ≠ [] → decode s.stim = .error why → step s = .refused (.notAStimulus why))

/-- Every operation completes in every state and leaves the configuration and the rest of the stimulus
alone: nothing is refused and nothing sticks (R205, R210). -/
def Obligations.EveryOperationCompletes : Prop :=
  ∀ (i : Instr) (s : State), ∃ t, exec i s = .next t ∧ t.cfg = s.cfg ∧ t.stim = s.stim

/-! ### Reset and invariants -/

/-- RESET, and STEP with `rst` = 1 whatever the other inputs, write the reset table and emit RESET alone
(R240, R47). -/
def Obligations.ResetWritesTheResetTable : Prop :=
  ∀ s : State,
    (∃ t, exec .reset s = .next t ∧ t.said = [.reset] ∧
      t.rx = { cnt := 0, ovf := 0, remotePrev := false, hiDur := 0, loDur := 0, decoding := false,
               nbits := 0, cmdBuf := 0, cstate := 0 } ∧
      t.tx = { phase := .idle, dly := 0, byte := 0, bit := 0, pay := 0,
               dataOut := false, clockOut := false, strobeOut := true }) ∧
    (∀ inp : Inputs, inp.rst = true → ∃ t, exec (.step inp) s = .next t ∧ t.said = [.reset] ∧
      t.rx = State.reset.rx ∧ t.tx = State.reset.tx) ∧
    State.reset.rx = Rx.reset ∧ State.reset.tx = Tx.reset ∧ Tx.reset.busy = false

/-- The first tick after reset (R243): with the line low the counter starts; with the line high a rising
edge of duration 1 is rejected and the timer restarts; a request is accepted. -/
def Obligations.FirstTickAfterReset : Prop :=
  ∀ (s : State) (inp : Inputs), s.rx = Rx.reset → s.tx = Tx.reset → inp.rst = false →
    ∃ t, exec (.step inp) s = .next t ∧ t.rx.remotePrev = inp.remoteIn ∧ t.rx.contextZero ∧
      t.rx.cstate = 0 ∧ t.rx.cnt = (if inp.remoteIn then 0 else 1) ∧
      t.said.filter (fun l => !l.ofTx) =
        (if inp.stateClr then [.stateClr] else []) ++ (if inp.remoteIn then [.rejectIdle] else []) ∧
      (inp.txStart = true → inp.txSel ≠ 3 → t.tx.phase = .clkHi ∧ .txStart inp.txSel ∈ t.said)

/-- The reset state meets the invariants of R46. -/
def Obligations.ResetMeetsTheInvariants : Prop := State.reset.Inv ∧ State.reset.tx.OnPath

/-- Every step keeps the invariants of R46 (a) to (g) in a legal configuration. The two bit operations run
alone are asked for the state RISE takes a bit in: alone, without the COMPLETE that follows them inside
RISE, they would otherwise leave the count at 32 (R27). -/
def Obligations.StepKeepsTheInvariants : Prop :=
  ∀ s t : State, s.Inv →
    (∀ i rest, decode s.stim = .ok (i, rest) → i = .bit1 ∨ i = .bit0 → s.rx.takesBit) →
    step s = .next t → t.Inv

/-- The invariants of R46 hold in the reset state and every tick keeps them, whatever its inputs; and a
sequencer on its path stays on it (R167, corner cases). -/
def Obligations.TickKeepsTheInvariants : Prop :=
  State.reset.Inv ∧
  ∀ (s : State) (inp : Inputs), s.Inv →
    ∃ t, exec (.step inp) s = .next t ∧ t.Inv ∧ t.rx.time ≤ 65023 ∧ (s.tx.OnPath → t.tx.OnPath)

/-! ### One tick -/

/-- STEP is its operations in the order of R200: RESET alone if `rst`; otherwise STATECLR if requested,
ADVANCE, the edge operation the vector selects (with TMRCLR), the sampling of `remote_in`, TXSTEP. -/
def Obligations.StepComposesItsOperations : Prop :=
  ∀ (s : State) (inp : Inputs),
    (inp.rst = true → ∃ r t, exec .reset s = .next r ∧ exec (.step inp) s = .next t ∧
      t.rx = r.rx ∧ t.tx = r.tx ∧ t.labels = r.labels ∧ t.now = r.now) ∧
    (inp.rst = false → ∃ a b c x t,
      (if inp.stateClr then exec .stateClr s = .next a else a = s.fresh) ∧
      exec .advance a = .next b ∧
      exec (decodeEdge (edgeVector s.rx.remotePrev inp.remoteIn)) b = .next c ∧
      exec .txStep { s with inp := inp } = .next x ∧
      exec (.step inp) s = .next t ∧
      t.rx = { c.rx with remotePrev := inp.remoteIn } ∧ t.tx = x.tx ∧
      t.said = a.said ++ b.said ++ c.said ++ x.said ∧
      t.now = s.now + 1 ∧ t.inp = inp ∧ t.host = s.host)

/-- The edge vector selects the operation of a tick (R82): nothing more on 00 and 11, RISE and FALL with
TMRCLR on 01 and 10. -/
def Obligations.EdgeVectorSelectsTheOperation : Prop :=
  ∀ s : State,
    exec (decodeEdge 0b00) s = .next s.fresh ∧ exec (decodeEdge 0b11) s = .next s.fresh ∧
    (∃ t, exec (decodeEdge 0b01) s = .next t ∧ exec .rise s = .next t ∧ t.rx.cnt = 0 ∧ t.rx.ovf = 0) ∧
    (∃ t, exec (decodeEdge 0b10) s = .next t ∧ exec .fall s = .next t ∧ t.rx.cnt = 0 ∧ t.rx.ovf = 0)

/-- The two halves are independent (R202): each reads only its own registers and inputs. -/
def Obligations.HalvesDoNotReadEachOther : Prop :=
  ∀ (s s' : State) (inp inp' : Inputs), inp.rst = inp'.rst →
    ∃ t t', exec (.step inp) s = .next t ∧ exec (.step inp') s' = .next t' ∧
      (s.rx = s'.rx → inp.remoteIn = inp'.remoteIn → inp.stateClr = inp'.stateClr → t.rx = t'.rx) ∧
      (s.tx = s'.tx → s.cfg = s'.cfg → inp.txStart = inp'.txStart → inp.txSel = inp'.txSel → t.tx = t'.tx)

/-- The labels of one tick, in their order (R203). -/
def Obligations.LabelsOfATickAreInOrder : Prop :=
  ∀ (s : State) (inp : Inputs), ∃ t, exec (.step inp) s = .next t ∧
    (inp.rst = true → t.said = [.reset]) ∧
    (inp.rst = false → ∃ l1 l2 l3 l4 l5, t.said = l1 ++ l2 ++ l3 ++ l4 ++ l5 ∧
      (l1 = [] ∨ l1 = [.stateClr]) ∧ (l2 = [] ∨ l2 = [.timeout]) ∧
      (l3 = [] ∨ (∃ d, l3 = [.fall d]) ∨ l3 = [.start] ∨ l3 = [.rejectIdle] ∨ l3 = [.rejectMark] ∨
        l3 = [.bit0] ∨ l3 = [.bit1] ∨ l3 = [.rejectSpace]) ∧
      (l4 = [] ∨ ((l3 = [.bit0] ∨ l3 = [.bit1]) ∧ ∃ w, l4 = [doneLabel w])) ∧
      (l5 = [] ∨ (∃ sel, l5 = [.txStart sel]) ∨ l5 = [.txDone]))

/-- A timeout and an edge in one tick: the timeout is applied first, the edge receives duration 0, and a
rising edge takes REJECT_IDLE (R214). -/
def Obligations.TimeoutComesBeforeTheEdge : Prop :=
  ∀ (s : State) (inp : Inputs), s.rx.cnt = 255 → s.rx.ovf = 253 → inp.rst = false → inp.stateClr = false →
    inp.remoteIn ≠ s.rx.remotePrev →
    ∃ t, exec (.step inp) s = .next t ∧ t.rx.contextZero ∧ t.rx.cnt = 0 ∧ t.rx.cstate = s.rx.cstate ∧
      t.rx.remotePrev = inp.remoteIn ∧
      t.said.filter (fun l => !l.ofTx) =
        (if inp.remoteIn then [.timeout, .rejectIdle] else [.timeout, .fall 0])

/-! ### Comparator -/

/-- WITHIN answers whether `5m > 3n` and `5m < 7n`, strict at both ends, and touches no register (R100). -/
def Obligations.WithinAnswersTheStrictBand : Prop :=
  ∀ (m n : Dur) (s : State),
    exec (.within m n) s = .next { s.fresh with
      result := .bit (decide (3 * n.toNat < 5 * m.toNat ∧ 5 * m.toNat < 7 * n.toNat)) } ∧
    within 0 n.toNat = false ∧ within m.toNat 0 = false ∧ (n ≠ 0 → within n.toNat n.toNat = true)

/-- The accepted windows as integer ranges (R102), and the disjointness of the mark windows and of the
space windows (R103). -/
def Obligations.WindowsAreTheIntegerRanges : Prop :=
  ∀ d : Dur,
    (isStartMark d = true ↔ 5401 ≤ d.toNat ∧ d.toNat ≤ 12599) ∧
    (isStartSpace d = true ↔ 2701 ≤ d.toNat ∧ d.toNat ≤ 6299) ∧
    (isBitMark d = true ↔ 391 ≤ d.toNat ∧ d.toNat ≤ 909) ∧
    (isOneSpace d = true ↔ 1051 ≤ d.toNat ∧ d.toNat ≤ 2449) ∧
    (isZeroSpace d = true ↔ 391 ≤ d.toNat ∧ d.toNat ≤ 909) ∧
    ¬(isBitMark d = true ∧ isStartMark d = true) ∧ ¬(isZeroSpace d = true ∧ isOneSpace d = true) ∧
    ¬(isZeroSpace d = true ∧ isStartSpace d = true) ∧ ¬(isOneSpace d = true ∧ isStartSpace d = true)

/-! ### Pulse timer -/

/-- ELAPSED answers `256 * ovf + cnt` and touches no register (R110). -/
def Obligations.ElapsedAnswersTallyAndCounter : Prop :=
  ∀ s : State, exec .elapsed s = .next { s.fresh with
    result := .ticks (BitVec.ofNat 16 (256 * s.rx.ovf.toNat + s.rx.cnt.toNat)) }

/-- ADVANCE adds one tick to the elapsed time and nothing else, and at 65,023 restarts it from 0 with the
context cleared and TIMEOUT reported (R111, R112, R113). -/
def Obligations.AdvanceCountsOneTick : Prop :=
  ∀ s : State, s.rx.ovf.toNat ≤ 253 →
    ∃ t, exec .advance s = .next t ∧
      (s.rx.time < 65023 → t.rx.time = s.rx.time + 1 ∧
        t.rx = { s.rx with cnt := t.rx.cnt, ovf := t.rx.ovf } ∧ t.labels = []) ∧
      (s.rx.time = 65023 → t.rx.cnt = 0 ∧ t.rx.contextZero ∧ t.rx.cstate = s.rx.cstate ∧
        t.rx.remotePrev = s.rx.remotePrev ∧ t.labels = [⟨s.now, .timeout⟩]) ∧
      t.tx = s.tx

/-- OVF adds 1 to the tally and at 254 runs TIMEOUT; TIMEOUT is CTXRESET with its label; TMRCLR clears the
counter and the tally (R112, R113, R114). -/
def Obligations.TimerEventsWriteTheirRegisters : Prop :=
  ∀ s : State,
    exec .ovf s = .next (if s.rx.ovf = 253 then
        { s.fresh with
          rx := { s.rx with ovf := 0, hiDur := 0, loDur := 0, decoding := false, nbits := 0, cmdBuf := 0 }
          labels := [⟨s.now, .timeout⟩] }
      else { s.fresh with rx := { s.rx with ovf := s.rx.ovf + 1 } }) ∧
    exec .timeout s = .next { s.fresh with
      rx := { s.rx with ovf := 0, hiDur := 0, loDur := 0, decoding := false, nbits := 0, cmdBuf := 0 }
      labels := [⟨s.now, .timeout⟩] } ∧
    exec .tmrClr s = .next { s.fresh with rx := { s.rx with cnt := 0, ovf := 0 } }

/-- Ticks without an edge (R113, R116, R117): the elapsed time is counted modulo 65,024, TIMEOUT comes once
for every 65,024, and it leaves the context clear; before the first, nothing but the timer moves. -/
def Obligations.QuietTicksCountModuloTheTimeout : Prop :=
  ∀ (s : State) (n : Nat), s.quiet → s.rx.ovf.toNat ≤ 253 →
    ∃ t, exec (.wait n) s = .next t ∧ t.rx.time = (s.rx.time + n) % 65024 ∧
      (t.said.filter fun l => l == .timeout).length = (s.rx.time + n) / 65024 ∧
      t.rx.cstate = s.rx.cstate ∧ t.rx.remotePrev = s.rx.remotePrev ∧
      (s.rx.time + n < 65024 → t.rx = { s.rx with cnt := t.rx.cnt, ovf := t.rx.ovf }) ∧
      (65024 ≤ s.rx.time + n →
        t.rx.hiDur = 0 ∧ t.rx.loDur = 0 ∧ t.rx.decoding = false ∧ t.rx.nbits = 0 ∧ t.rx.cmdBuf = 0)

/-- A mark of `h` ticks is captured at its falling edge as `h` modulo 65,024 (R117, R118, R126). -/
def Obligations.MarkIsCapturedModuloTheTimeout : Prop :=
  ∀ (s : State) (h : Nat), s.host = .absent → s.rx.remotePrev = false → 1 ≤ h →
    ∃ t u, exec (.hi h) s = .next t ∧ exec (.lo 1) t = .next u ∧
      u.rx.hiDur.toNat = h % 65024 ∧ .fall u.rx.hiDur ∈ u.said ∧ u.rx.time = 0 ∧ u.rx.remotePrev = false

/-! ### Remote decoder -/

/-- CTXRESET clears the six context fields and writes nothing else (R125). -/
def Obligations.ContextResetClearsSixFields : Prop :=
  ∀ s : State, exec .ctxReset s = .next { s.fresh with
    rx := { s.rx with ovf := 0, hiDur := 0, loDur := 0, decoding := false, nbits := 0, cmdBuf := 0 } }

/-- FALL captures the elapsed time as the mark, then TMRCLR; nothing else (R126, R114). -/
def Obligations.FallCapturesTheMark : Prop :=
  ∀ s : State, exec .fall s = .next { s.fresh with
    rx := { s.rx with hiDur := BitVec.ofNat 16 s.rx.time, cnt := 0, ovf := 0 }
    labels := [⟨s.now, .fall (BitVec.ofNat 16 s.rx.time)⟩] }

/-- The six branches of RISE as operations (R128 to R133). -/
def Obligations.SymbolOperationsWriteTheContext : Prop :=
  ∀ s : State,
    exec .start s = .next { s.fresh with
      rx := { s.rx with cmdBuf := 0, nbits := 0, decoding := true }, labels := [⟨s.now, .start⟩] } ∧
    exec .bit1 s = .next { s.fresh with
      rx := { s.rx with cmdBuf := (s.rx.cmdBuf <<< 1) ||| 1, nbits := s.rx.nbits + 1 }
      labels := [⟨s.now, .bit1⟩] } ∧
    exec .bit0 s = .next { s.fresh with
      rx := { s.rx with cmdBuf := s.rx.cmdBuf <<< 1, nbits := s.rx.nbits + 1 }
      labels := [⟨s.now, .bit0⟩] } ∧
    (∀ p ∈ [(Instr.rejectIdle, Label.rejectIdle), (Instr.rejectMark, Label.rejectMark),
            (Instr.rejectSpace, Label.rejectSpace)],
      exec p.1 s = .next { s.fresh with
        rx := { s.rx with ovf := 0, hiDur := 0, loDur := 0, decoding := false, nbits := 0, cmdBuf := 0 }
        labels := [⟨s.now, p.2⟩] })

/-- The 4-bit class of the mark and the space, with the decode flag, selects the branch RISE takes (R72). -/
def Obligations.SymbolClassSelectsTheBranch : Prop :=
  ∀ (s : State) (h l : Dur),
    exec (decodeSymbol (symbolClass h l) s.rx.decoding) s = .next (s.fresh.onRx (riseBranch h l))

/-- RISE with the mark `hi_dur` and the space `d` = ELAPSED, followed by TMRCLR: the six branches in the
source's order, and COMPLETE when the count reaches 32 (R127, R134, R114). -/
def Obligations.RiseTakesItsBranch : Prop :=
  ∀ (s : State) (h l : Nat), h = s.rx.hiDur.toNat → l = s.rx.time →
    ∃ t, exec .rise s = .next t ∧ t.rx.cnt = 0 ∧ t.rx.ovf = 0 ∧ t.rx.remotePrev = s.rx.remotePrev ∧
      t.tx = s.tx ∧ t.inp = s.inp ∧ t.host = s.host ∧ t.now = s.now ∧
      (if 5401 ≤ h ∧ h ≤ 12599 ∧ 2701 ≤ l ∧ l ≤ 6299 then
        t.said = [.start] ∧ t.rx.decoding = true ∧ t.rx.nbits = 0 ∧ t.rx.cmdBuf = 0 ∧
          t.rx.hiDur = s.rx.hiDur ∧ t.rx.loDur.toNat = l ∧ t.rx.cstate = s.rx.cstate
      else if s.rx.decoding = false then
        t.said = [.rejectIdle] ∧ t.rx.contextZero ∧ t.rx.cstate = s.rx.cstate
      else if ¬(391 ≤ h ∧ h ≤ 909) then
        t.said = [.rejectMark] ∧ t.rx.contextZero ∧ t.rx.cstate = s.rx.cstate
      else if (1051 ≤ l ∧ l ≤ 2449) ∨ (391 ≤ l ∧ l ≤ 909) then
        ∀ b w, b = decide (1051 ≤ l) → w = (s.rx.cmdBuf <<< 1) ||| (if b then 1 else 0) →
          if s.rx.nbits = 31 then
            t.said = [if b then .bit1 else .bit0, doneLabel w] ∧ t.rx.contextZero ∧
              t.rx.cstate = afterWord w s.rx.cstate
          else
            t.said = [if b then .bit1 else .bit0] ∧ t.rx.cmdBuf = w ∧ t.rx.nbits = s.rx.nbits + 1 ∧
              t.rx.decoding = true ∧ t.rx.hiDur = s.rx.hiDur ∧ t.rx.loDur.toNat = l ∧
              t.rx.cstate = s.rx.cstate
      else
        t.said = [.rejectSpace] ∧ t.rx.contextZero ∧ t.rx.cstate = s.rx.cstate)

/-- COMPLETE consumes the word: a valid one is mapped to its command, an invalid one is discarded, and the
context is reset either way (R134). -/
def Obligations.CompleteConsumesTheWord : Prop :=
  ∀ s : State, exec .complete s = .next { s.fresh with
    rx := { s.rx with ovf := 0, hiDur := 0, loDur := 0, decoding := false, nbits := 0, cmdBuf := 0,
                      cstate := afterWord s.rx.cmdBuf s.rx.cstate }
    labels := [⟨s.now, doneLabel s.rx.cmdBuf⟩] }

/-- COMPLETE is the CWORD operation its word decodes to, then CTXRESET (R75, R84, R134). -/
def Obligations.CompleteRunsTheDecodedWord : Prop :=
  ∀ s : State, ∃ a b t, exec (decodeCword s.rx.cmdBuf) s = .next a ∧ exec .ctxReset a = .next b ∧
    exec .complete s = .next t ∧ t.rx = b.rx ∧ t.tx = b.tx ∧ t.said = a.said

/-- The CWORD operations: what each word does to the changer state, and its label (R75, R134, R150). That a
row run alone is the arm of COMPLETE without the CTXRESET after it, so that it leaves the decoder context,
is the model's choice (assumption 9); the CTXRESET is in CompleteRunsTheDecodedWord. -/
def Obligations.CommandWordOperations : Prop :=
  ∀ s : State,
    exec .cmdSelectA s = .next { s.fresh with
      rx := { s.rx with cstate := 1 }, labels := [⟨s.now, .doneValid 0x08⟩] } ∧
    exec .cmdSelectB s = .next { s.fresh with
      rx := { s.rx with cstate := 1 }, labels := [⟨s.now, .doneValid 0xA4⟩] } ∧
    exec .cmdDeselect s = .next { s.fresh with
      rx := { s.rx with cstate := 2 }, labels := [⟨s.now, .doneValid 0x10⟩] } ∧
    (∀ c, (Instr.cmdReserved c).wellFormed = true →
      exec (.cmdReserved c) s = .next { s.fresh with labels := [⟨s.now, .doneValid c⟩] }) ∧
    (∀ w, exec (.wordInvalid w) s = .next { s.fresh with labels := [⟨s.now, .doneInvalid w⟩] })

/-- VALID answers whether the sync is 0x532C and the check byte is the complement of the command byte
(R135); the valid words are the 256 words of R74, one for each command byte. -/
def Obligations.ValidAnswersSyncAndCheck : Prop :=
  ∀ (w : CmdWord) (s : State),
    exec (.valid w) s = .next { s.fresh with result := .bit (decide (w.toNat / 65536 = 0x532C ∧
      w.toNat % 256 + w.toNat / 256 % 256 = 255)) } ∧
    (validWord w = true ↔
      ∃ c : Byte, w = (0x532C0000 : CmdWord) ||| (c.setWidth 32 <<< 8) ||| (c ^^^ 0xFF).setWidth 32)

/-- A full remote frame with any durations inside the windows, from an idle decoder on a low line, is taken
as its word: one DONE label, the changer state the word's command gives, the decoder idle (R73, R137). -/
def Obligations.RemoteFrameIsTakenAsItsWord : Prop :=
  ∀ (s : State) (hs ls : Dur) (data : List (Dur × Dur)) (closing : Dur),
    (Instr.rframe hs ls data closing).wellFormed = true →
    s.host = .absent → s.rx.remotePrev = false → s.rx.decoding = false →
    ∃ t, exec (.rframe hs ls data closing) s = .next t ∧
      t.said.filter Label.ofComplete = [doneLabel (wordOfSymbols data)] ∧
      t.rx.cstate = afterWord (wordOfSymbols data) s.rx.cstate ∧
      t.rx.decoding = false ∧ t.rx.nbits = 0 ∧ t.rx.cmdBuf = 0 ∧ t.rx.remotePrev = true

/-- `WORD w` alone holds 31 bits and no more: the 32nd waits for the closing edge, which `CLOSE` gives
(R257, R137). -/
def Obligations.WordNeedsItsClosingMark : Prop :=
  ∀ (s : State) (w : CmdWord), s.host = .absent → s.rx.remotePrev = false → s.rx.decoding = false →
    ∃ t u, exec (.word w) s = .next t ∧ t.rx.decoding = true ∧ t.rx.nbits = 31 ∧
      t.rx.cmdBuf = w >>> 1 ∧ t.rx.cstate = s.rx.cstate ∧ t.said.filter Label.ofComplete = [] ∧
      t.rx.hiDur = 650 ∧ t.rx.time = (if w.getLsbD 0 then 1749 else 649) ∧
      exec .close t = .next u ∧ u.said.filter Label.ofComplete = [doneLabel w] ∧
      u.rx.cstate = afterWord w s.rx.cstate ∧ u.rx.decoding = false

/-! ### Changer state -/

/-- COMMAND maps the command byte to the changer state by the table of R150, from any state. -/
def Obligations.CommandFollowsTheTransitionTable : Prop :=
  ∀ (s : State) (c : Byte), exec (.command c) s = .next { s.fresh with
    rx := { s.rx with cstate := if c = 0x08 ∨ c = 0xA4 then 1 else if c = 0x10 then 2
                                else s.rx.cstate } }

/-- STATECLR writes INIT whatever the state holds (R151); in a tick with a command, the clear is applied
first and the command's value stands (R152). -/
def Obligations.ClearComesBeforeTheCommand : Prop :=
  ∀ s : State,
    exec .stateClr s = .next { s.fresh with
      rx := { s.rx with cstate := 0 }, labels := [⟨s.now, .stateClr⟩] } ∧
    (∀ inp : Inputs, inp.rst = false → inp.stateClr = true →
      ∃ t u, exec (.step inp) s = .next t ∧
        exec (.step { inp with stateClr := false }) { s with rx := { s.rx with cstate := 0 } } = .next u ∧
        t.rx = u.rx ∧ t.tx = u.tx ∧ t.said = .stateClr :: u.said)

/-- In one tick the changer state changes only by a validated command word, by STATECLR or by RESET, and a
command writes only PLAY or STOP (R137 (f), R218). -/
def Obligations.ChangerMovesOnlyByCommandClearOrReset : Prop :=
  ∀ (s : State) (inp : Inputs), ∃ t, exec (.step inp) s = .next t ∧
    (t.rx.cstate ≠ s.rx.cstate →
      (inp.rst = true ∧ t.rx.cstate = 0) ∨
      (inp.rst = false ∧ inp.stateClr = true ∧ .stateClr ∈ t.said ∧ t.rx.cstate = 0) ∨
      (∃ c, .doneValid c ∈ t.said ∧ t.rx.cstate = afterCommand c 0 ∧ t.rx.cstate ≠ 0))

/-! ### Frame transmitter -/

/-- The ROM holds the three payloads of R51 at `sel * 8 + i` and nothing at 24 and above; a payload read
answers its 64 bits and touches no register (R52, R53). That the ROM is a list in canonical form is the
model's (assumption 14). -/
def Obligations.RomHoldsTheThreePayloads : Prop :=
  Memory.wf Config.rom ∧ (∀ a, 24 ≤ a → memRead a = none) ∧
  (∀ sel : Sel, sel ≠ 3 → ∀ i : BitVec 3,
    memRead (sel.toNat * 8 + i.toNat) = some (payByte (payloadOf sel) i)) ∧
  ∀ s : State,
    exec .payloadInit s = .next { s.fresh with result := .payload 0x73FFFFFFFFFF7F7B } ∧
    exec .payloadPlay s = .next { s.fresh with result := .payload 0x33FFCF81CF7F7F3B } ∧
    exec .payloadStop s = .next { s.fresh with result := .payload 0x13FFFFFFFFFF7F1B }

/-- The codes of INIT, PLAY, STOP and the reserved one (R83). That an ENUM operation answers its code is
the model's choice, and so is that a phase operation outside its phase changes nothing (assumptions 7, 9). -/
def Obligations.EnumOperationsAnswerTheirCodes : Prop :=
  ∀ s : State,
    exec .cstateInit s = .next { s.fresh with result := .code 0 } ∧
    exec .cstatePlay s = .next { s.fresh with result := .code 1 } ∧
    exec .cstateStop s = .next { s.fresh with result := .code 2 } ∧
    exec .cstateReserved s = .next { s.fresh with result := .code 3 } ∧
    ∀ p ∈ [(Instr.phaseIdle, TxPhase.idle), (Instr.phaseClkHi, TxPhase.clkHi),
           (Instr.phaseClkLo, TxPhase.clkLo), (Instr.phaseStbSetup, TxPhase.stbSetup),
           (Instr.phaseStbLow, TxPhase.stbLow), (Instr.phaseStbHold, TxPhase.stbHold),
           (Instr.phaseByteGap, TxPhase.byteGap), (Instr.phaseInterbyte, TxPhase.interbyte)],
      s.tx.phase ≠ p.2 → exec p.1 s = .next s.fresh

/-- TXSTART in IDLE with a select other than 3 latches the payload and starts the first bit cell in the same
tick (R165). -/
def Obligations.StartLatchesThePayload : Prop :=
  ∀ (s : State) (sel : Sel), s.tx.phase = .idle → sel ≠ 3 →
    exec (.txStart sel) s = .next { s.fresh with
      tx := { s.tx with pay := payloadOf sel, byte := 0, bit := 7, dataOut := (payloadOf sel).getLsbD 63,
                        clockOut := true, phase := .clkHi, dly := 5 }
      labels := [⟨s.now, .txStart sel⟩] }

/-- A request while busy, or with select 3, changes nothing and is not remembered (R169). That the row of the
refused request has no effect in the other states either is the model's choice (assumption 17). -/
def Obligations.RefusedRequestChangesNothing : Prop :=
  ∀ (s : State) (sel : Sel),
    exec (.txStartRefused sel) s = .next s.fresh ∧
    (s.tx.busy = true ∨ sel = 3 → exec (.txStart sel) s = .next s.fresh) ∧
    (∀ inp : Inputs, s.tx.busy = true ∨ inp.txSel = 3 →
      ∃ t u, exec (.step inp) s = .next t ∧ exec (.step { inp with txStart := false }) s = .next u ∧
        t.rx = u.rx ∧ t.tx = u.tx ∧ t.labels = u.labels)

/-- TXSTEP is the arm its phase selects (R166, R167). -/
def Obligations.TxStepRunsTheArmOfItsPhase : Prop :=
  ∀ s : State, ∃ t, exec .txStep s = .next t ∧ exec (decodePhase s.tx.phase.code) s = .next t ∧ t.rx = s.rx

/-- A timed phase counts down to 1 and otherwise holds: each phase operation while `tx_dly` > 1 (R167). -/
def Obligations.TimedPhaseCountsDown : Prop :=
  ∀ s : State, 1 < s.tx.dly →
    ∀ p ∈ [(Instr.phaseClkHi, TxPhase.clkHi), (Instr.phaseClkLo, TxPhase.clkLo),
           (Instr.phaseStbSetup, TxPhase.stbSetup), (Instr.phaseStbLow, TxPhase.stbLow),
           (Instr.phaseStbHold, TxPhase.stbHold), (Instr.phaseByteGap, TxPhase.byteGap),
           (Instr.phaseInterbyte, TxPhase.interbyte)],
      s.tx.phase = p.2 → exec p.1 s = .next { s.fresh with tx := { s.tx with dly := s.tx.dly - 1 } }

/-- In its last tick a timed phase hands over as R167 says, and IDLE waits for a request (R165, R167). -/
def Obligations.PhaseHandsOverInItsLastTick : Prop :=
  ∀ s : State, s.tx.dly = 1 →
    (s.tx.phase = .clkHi → exec .phaseClkHi s = .next { s.fresh with
      tx := { s.tx with clockOut := false, phase := .clkLo, dly := 11 } }) ∧
    (s.tx.phase = .clkLo → exec .phaseClkLo s = .next { s.fresh with
      tx := if s.tx.bit ≠ 0 then
          { s.tx with bit := s.tx.bit - 1, clockOut := true, phase := .clkHi, dly := 5,
                      dataOut := s.tx.pay.getLsbD (8 * (7 - s.tx.byte.toNat) + (s.tx.bit.toNat - 1)) }
        else if s.tx.byte = 0 ∨ s.tx.byte = 7 then { s.tx with phase := .stbSetup, dly := 100 }
        else { s.tx with phase := .byteGap, dly := s.cfg.tByteGap } }) ∧
    (s.tx.phase = .stbSetup → exec .phaseStbSetup s = .next { s.fresh with
      tx := { s.tx with strobeOut := false, phase := .stbLow, dly := 5 } }) ∧
    (s.tx.phase = .stbLow → exec .phaseStbLow s = .next { s.fresh with
      tx := { s.tx with strobeOut := true, phase := .stbHold, dly := s.cfg.tStrobeHold } }) ∧
    (s.tx.phase = .stbHold → exec .phaseStbHold s = .next (if s.tx.byte = 7 then
        { s.fresh with tx := { s.tx with phase := .idle, dly := 0 }, labels := [⟨s.now, .txDone⟩] }
      else { s.fresh with tx := { s.tx with phase := .interbyte, dly := s.cfg.tInterbyte } })) ∧
    (s.tx.phase = .byteGap → exec .phaseByteGap s = .next { s.fresh with
      tx := { s.tx with phase := .interbyte, dly := s.cfg.tInterbyte } }) ∧
    (s.tx.phase = .interbyte → exec .phaseInterbyte s = .next { s.fresh with
      tx := { s.tx with byte := s.tx.byte + 1, bit := 7, clockOut := true, phase := .clkHi, dly := 5,
                        dataOut := s.tx.pay.getLsbD (8 * (7 - (s.tx.byte + 1).toNat) + 7) } })

/-- The IDLE phase takes a request as TXSTART and otherwise changes nothing (R165, R167, R169). -/
def Obligations.IdlePhaseWaitsForARequest : Prop :=
  ∀ s : State, s.tx.phase = .idle →
    (s.inp.txStart = true → s.inp.txSel ≠ 3 →
      ∃ t, exec .phaseIdle s = .next t ∧ exec (.txStart s.inp.txSel) s = .next t ∧ t.tx.phase = .clkHi) ∧
    (s.inp.txStart = false ∨ s.inp.txSel = 3 → exec .phaseIdle s = .next s.fresh)

/-- A phase entered with `tx_dly` = T shows its lines for T ticks (R167): after `n` < T further ticks only
the counter has moved, whatever the line does. -/
def Obligations.PhaseLastsItsDelay : Prop :=
  ∀ (s : State) (n : Nat) (level : Bool), s.host = .absent → s.tx.phase ≠ .idle → n < s.tx.dly.toNat →
    ∃ t, exec (if level then .hi n else .lo n) s = .next t ∧
      t.tx = { s.tx with dly := s.tx.dly - BitVec.ofNat 16 n } ∧ t.said.filter Label.ofTx = []

/-- The frame in flight keeps its payload and ignores `tx_start` and `tx_sel` (R64, R167). -/
def Obligations.FrameInFlightKeepsItsPayload : Prop :=
  ∀ (s : State) (inp inp' : Inputs), s.tx.busy = true → inp.rst = false → inp'.rst = false →
    ∃ t t', exec (.step inp) s = .next t ∧ exec (.step inp') s = .next t' ∧
      t.tx = t'.tx ∧ t.tx.pay = s.tx.pay

/-- A frame lasts `T_FRAME` ticks (R171) and leaves the lines at rest with DATA at the last bit sent (R168):
`TXW` from IDLE, in any legal configuration. -/
def Obligations.FrameTakesTFrameTicks : Prop :=
  ∀ (s : State) (sel : Sel), s.tx.phase = .idle → sel ≠ 3 → s.cfg.wf → s.host = .absent →
    ∀ n, n = 8 * 128 + 2 * (100 + 5 + s.cfg.tStrobeHold.toNat) + 6 * s.cfg.tByteGap.toNat +
        7 * s.cfg.tInterbyte.toNat →
      ∃ t, exec (.txw sel) s = .next t ∧ t.now = s.now + 1 + n ∧
        t.tx = { phase := .idle, dly := 0, byte := 7, bit := 0, pay := payloadOf sel,
                 dataOut := (payloadOf sel).getLsbD 0, clockOut := false, strobeOut := true } ∧
        t.labels.filter (fun e => e.label.ofTx) =
          [⟨s.now + 1, .txStart sel⟩, ⟨s.now + 1 + n, .txDone⟩]

/-- The sequencer shows the waveform of the call (R170): `k` ticks after the tick of acceptance the lines are
those of TXFRAME(PAYLOAD(sel)) at offset `k` and the block is busy; at `T_FRAME` it is idle. -/
def Obligations.SequencerShowsTheWaveform : Prop :=
  ∀ (s : State) (sel : Sel), s.tx.Inv → s.tx.phase = .idle → sel ≠ 3 → s.cfg.wf → s.host = .absent →
    ∃ a, exec (.tx sel) s = .next a ∧
      (∀ k < tFrame s.cfg, ∃ b, exec (.wait k) a = .next b ∧ b.tx.busy = true ∧
        (waveLines s.tx.dataOut (waveFrame s.cfg (payloadOf sel)))[k]? = some b.tx.lines) ∧
      (∃ b, exec (.wait (tFrame s.cfg)) a = .next b ∧ b.tx.busy = false ∧ .txDone ∈ b.said) ∧
      (waveLines s.tx.dataOut (waveFrame s.cfg (payloadOf sel))).length = tFrame s.cfg

/-- The round trip through the reference receiver (R172): the 64 bits taken at the falling clock edges of a
frame are the payload, most significant first, and STROBE is low at offsets 228 to 232 of byte 0 and of
byte 7 only (R171). -/
def Obligations.ReceiverRebuildsThePayload : Prop :=
  ∀ (c : Cfg) (p : Payload) (d : Bool), c.wf →
    received false (waveLines d (waveFrame c p)) = (List.range 64).map (fun i => p.getMsbD i) ∧
    (∀ k l, (waveLines d (waveFrame c p))[k]? = some l →
      (l.strobe = false ↔ (228 ≤ k ∧ k ≤ 232) ∨
        (byte7Offset c + 228 ≤ k ∧ k ≤ byte7Offset c + 232)))

/-- The transmitter calls from IDLE drive their waveforms (R161 to R164): in each tick of a call the lines
are those of its waveform and the block is busy, the call answers its segments, and in the tick after them
the sequencer is in IDLE with CLOCK low, STROBE high and DATA at the last bit. Where the operand is latched,
the TXDONE of the last tick and that a call while busy has no effect are the model's choice
(assumption 8). -/
def Obligations.CallsDriveTheirWaveforms : Prop :=
  ∀ s : State, s.cfg.wf → s.tx.Inv →
    (s.tx.phase = .idle →
      (∀ (b : Bool) p w, p = (if b then 1 else 0 : Payload) →
        w = [⟨some b, true, true, 5⟩, ⟨some b, false, true, 11⟩] →
        ∃ t, exec (.txBit b) s = .next t ∧ ShowsWave w p 7 0 s.fresh ∧
          t = { endTick (callTicks p 7 0 15 s.fresh) with result := .wave w } ∧
          t.now = s.now + 16 + 1 ∧ t.tx = restAfter p 7 ∧ t.tx.dataOut = b ∧
          t.said.filter Label.ofTx = [.txDone]) ∧
      (∀ (v : Byte) p w n, p = v.setWidth 64 → n = 128 + 105 + s.cfg.tStrobeHold.toNat →
        w = waveCells v ++ [⟨none, false, true, 100⟩, ⟨none, false, false, 5⟩,
          ⟨none, false, true, s.cfg.tStrobeHold.toNat⟩] →
        ∃ t, exec (.txByteFramed v) s = .next t ∧ ShowsWave w p 7 7 s.fresh ∧
          t = { plainTick (callTicks p 7 7 (n - 1) s.fresh) with result := .wave w } ∧
          t.now = s.now + n + 1 ∧ t.tx = restAfter p 7 ∧ t.tx.dataOut = v.getLsbD 0 ∧
          t.said.filter Label.ofTx = [.txDone]) ∧
      (∀ (v : Byte) p w n, p = v.setWidth 64 <<< 8 → n = 128 + s.cfg.tByteGap.toNat →
        w = waveCells v ++ [⟨none, false, true, s.cfg.tByteGap.toNat⟩] →
        ∃ t, exec (.txBytePlain v) s = .next t ∧ ShowsWave w p 6 7 s.fresh ∧
          t = { endTick (callTicks p 6 7 (n - 1) s.fresh) with result := .wave w } ∧
          t.now = s.now + n + 1 ∧ t.tx = restAfter p 6 ∧ t.tx.dataOut = v.getLsbD 0 ∧
          t.said.filter Label.ofTx = [.txDone]) ∧
      (∀ (p : Payload) w n, w = waveFrame s.cfg p → n = tFrame s.cfg →
        ∃ t, exec (.txFrame p) s = .next t ∧ ShowsWave w p 0 7 s.fresh ∧
          t = { plainTick (callTicks p 0 7 (n - 1) s.fresh) with result := .wave w } ∧
          t.now = s.now + n + 1 ∧ t.tx = restAfter p 7 ∧ t.tx.dataOut = p.getLsbD 0 ∧
          t.said.filter Label.ofTx = [.txDone])) ∧
    (s.tx.busy = true → ∀ b v p,
      exec (.txBit b) s = .next s.fresh ∧ exec (.txByteFramed v) s = .next s.fresh ∧
      exec (.txBytePlain v) s = .next s.fresh ∧ exec (.txFrame p) s = .next s.fresh)

/-- The ticks of a call are ticks of STEP (R35 to R37: the lines are written by TXSTEP; R194): in its first
the timer and decoder half is that of STEP with nothing asserted while TXSTEP begins the operand's cell, each
further tick is that STEP, and the tick that ends a call early leaves the lines alone (assumption 8). -/
def Obligations.CallTicksAreTicksOfStep : Prop :=
  ∀ (s : State) (p : Payload) (i j : BitVec 3) (k : Nat), s.tx.phase = .idle →
    (∃ a, exec (.step s.restInputs) s = .next a ∧ (callTicks p i j 0 s).rx = a.rx ∧
      (callTicks p i j 0 s).now = a.now ∧
      (callTicks p i j 0 s).tx = { s.tx with
        pay := p, byte := i, bit := j, dataOut := p.getLsbD (8 * (7 - i.toNat) + j.toNat)
        clockOut := true, phase := .clkHi, dly := 5 }) ∧
    (∃ b, exec (.step s.restInputs) (callTicks p i j k s) = .next b ∧
      (callTicks p i j (k + 1) s).rx = b.rx ∧ (callTicks p i j (k + 1) s).tx = b.tx ∧
      (callTicks p i j (k + 1) s).now = b.now) ∧
    (∀ u : State, u.tx.phase ≠ .idle → u.tx.dly = 1 →
      ∃ c, exec (.step u.restInputs) u = .next c ∧ (endTick u).rx = c.rx ∧ (endTick u).now = c.now ∧
        (endTick u).tx = { u.tx with phase := .idle, dly := 0 })

/-- A frame as a call and as a request agree (R170): TXFRAME of the payload of `sel` and TXW `sel` leave the
same registers after the same number of ticks. The registers and the ticks of the call rest on the model's
choice that a call runs on the sequencer, its operand latched, for one tick beyond its waveform
(assumption 8). -/
def Obligations.FrameCallAgreesWithTheRequest : Prop :=
  ∀ (s : State) (sel : Sel), s.cfg.wf → s.tx.phase = .idle → sel ≠ 3 → s.host = .absent →
    ∃ t u, exec (.txFrame (payloadOf sel)) s = .next t ∧ exec (.txw sel) s = .next u ∧
      t.rx = u.rx ∧ t.tx = u.tx ∧ t.now = u.now

/-! ### Stimulus and host -/

/-- The request items are one tick of STEP, and `HI n`, `LO n` and `WAIT n` are `n` ticks of STEP
with the named level and, when no host runs beside them, nothing asserted (R86). -/
def Obligations.StimulusItemsAreTicksOfStep : Prop :=
  ∀ s : State,
    (∀ sel, exec (.tx sel) s = exec (.step { s.restInputs with txStart := true, txSel := sel }) s) ∧
    exec .clr s = exec (.step { s.restInputs with stateClr := true }) s ∧
    exec .reset s = exec (.step { s.restInputs with rst := true }) s ∧
    (∀ level n,
      exec (if level then .hi 0 else .lo 0) s = .next s.fresh ∧
      ∃ a b, exec (if level then .hi 1 else .lo 1) s = .next a ∧
        (s.host = .absent → exec (.step { s.restInputs with remoteIn := level }) s = .next a) ∧
        exec (if level then .hi n else .lo n) a = .next b ∧
        exec (if level then .hi (n + 1) else .lo (n + 1)) s =
          .next { b with labels := a.labels ++ b.labels }) ∧
    (∀ n, exec (.wait n) s = exec (if s.inp.remoteIn then .hi n else .lo n) s)

/-- A host list beside the stimulus (R86): in a tick of a level its next item is asserted, a wait of the
list uses a tick up and one of no ticks none, `TXW` is its request and then a wait while the block is busy,
and an empty list asserts nothing. How the list is held is the model's choice (assumption 10). -/
def Obligations.HostListRunsBesideTheStimulus : Prop :=
  ∀ (s : State) (level : Bool) (r : List HostItem) (inp : Inputs),
    inp = { s.restInputs with remoteIn := level } →
    ∀ one, one = (if level then Instr.hi 1 else .lo 1) →
      (∀ sel, s.host = .script (.tx sel :: r) → exec one s =
        exec (.step { inp with txStart := true, txSel := sel }) { s with host := .script r }) ∧
      (s.host = .script (.clr :: r) → exec one s =
        exec (.step { inp with stateClr := true }) { s with host := .script r }) ∧
      (s.host = .script (.reset :: r) → exec one s =
        exec (.step { inp with rst := true }) { s with host := .script r }) ∧
      (∀ n, s.host = .script (.wait (n + 1) :: r) → exec one s =
        exec (.step inp) { s with host := .script (.wait n :: r) }) ∧
      (s.host = .script (.wait 0 :: r) → exec one s = exec one { s with host := .script r }) ∧
      (∀ sel, s.host = .script (.txw sel :: r) → exec one s =
        exec (.step { inp with txStart := true, txSel := sel })
          { s with host := .script (.waitIdle :: r) }) ∧
      (s.host = .script (.waitIdle :: r) →
        (s.tx.busy = true → exec one s = exec (.step inp) s) ∧
        (s.tx.busy = false → exec one s = exec one { s with host := .script r })) ∧
      (s.host = .script [] → exec one s = exec (.step inp) s)

/-- The pseudo-items are their expansions (R87): a pulse is its two levels, the named symbols are pulses,
a word is a start and its 32 symbols, a command is its word, a close is a mark of 650, and `TXW` is `TX` and
a wait that ends as soon as the block is not busy, at the latest after `T_FRAME` ticks; `IDLE` is `LO`. That TXW's wait ends when either comes first is the model's
choice (assumption 11). -/
def Obligations.PseudoItemsAreTheirExpansions : Prop :=
  ∀ s : State,
    (∀ h l, ∃ t, exec (.pulse h l) s = .next t ∧ play [.hi h, .lo l] s = some t) ∧
    exec .startItem s = exec (.pulse 9000 4500) s ∧ exec .b1 s = exec (.pulse 650 1750) s ∧
    exec .b0 s = exec (.pulse 650 650) s ∧ exec .close s = exec (.hi 650) s ∧
    (∀ n, exec (.idle n) s = exec (.lo n) s) ∧
    (∀ w, ∃ t, exec (.word w) s = .next t ∧ play (itemsOfWord w) s = some t) ∧
    (∀ c : Byte, exec (.cmd c) s =
      exec (.word (0x532C0000 + (c.setWidth 32 <<< 8) + (c ^^^ 0xFF).setWidth 32)) s) ∧
    (∀ sel, ∃ n t, n ≤ tFrame s.cfg ∧ exec (.txw sel) s = .next t ∧
      play [.tx sel, .wait n] s = some t ∧ (t.tx.busy = true → n = tFrame s.cfg) ∧
      ∀ k < n, ∃ u, play [.tx sel, .wait k] s = some u ∧ u.tx.busy = true)

/-- DISPATCH starts the reference host in its settle delay; a pause of `n` ticks ends in a request for the
payload of the state read then (R191). How the host is held, and that it acts in the ticks of a wait, are the
model's choice (assumption 10). -/
def Obligations.DispatchRequestsThePayloadOfTheState : Prop :=
  ∀ s : State,
    exec .dispatch s = .next { s.fresh with host := .dispatch (.pause s.cfg.tSettle) } ∧
    (∀ n, s.host = .dispatch (.pause n) → s.tx.phase = .idle → s.rx.cstate ≠ 3 →
      s.inp.remoteIn = s.rx.remotePrev →
      ∃ t, exec (.wait (n + 1)) s = .next t ∧ t.host = .dispatch (.sending s.rx.cstate false) ∧
        t.tx.phase = .clkHi ∧ t.tx.pay = payloadOf s.rx.cstate ∧ t.rx.cstate = s.rx.cstate ∧
        t.labels.filter (fun e => e.label.ofHostSide) = [⟨s.now + n + 1, .txStart s.rx.cstate⟩])

/-- The stop sequence of the reference host (R192): two STOP frames with the pause between, then the clear,
and the changer state is INIT when the next iteration will read it. How the host is held is the model's
choice (assumption 10). -/
def Obligations.StopSequenceReturnsToInit : Prop :=
  ∀ (s : State) (f p : Nat), f = tFrame s.cfg → p = s.cfg.tStopPause →
    s.host = .dispatch (.pause 0) → s.tx.phase = .idle → s.cfg.wf → s.rx.cstate = 2 →
    s.inp.remoteIn = s.rx.remotePrev →
    ∃ t, exec (.wait (2 * (f + 1) + p + 1)) s = .next t ∧ t.rx.cstate = 0 ∧ t.tx.phase = .idle ∧
      t.host = .dispatch (.pause s.cfg.tCyclePause) ∧
      t.labels.filter (fun e => e.label.ofHostSide) =
        [⟨s.now + 1, .txStart 2⟩, ⟨s.now + 1 + f, .txDone⟩, ⟨s.now + 2 + f + p, .txStart 2⟩,
         ⟨s.now + 2 + f + p + f, .txDone⟩, ⟨s.now + 3 + f + p + f, .stateClr⟩]

/-- The other iterations of the reference host (R191). From the read of INIT or PLAY: the frame, the cycle
pause, and the next request, 1 + T_FRAME + T_CYCLE_PAUSE ticks after the first. After a frame the select read
at its start decides what follows, whatever the changer state is by then: the cycle pause and a read of the
state, or the stop pause and the confirming STOP frame; after that frame, the clear in the next tick. How
the host is held is the model's choice (assumption 10). -/
def Obligations.IterationsOfTheHostGoOn : Prop :=
  ∀ (s : State) (f c p : Nat), f = tFrame s.cfg → c = s.cfg.tCyclePause → p = s.cfg.tStopPause →
    s.tx.phase = .idle → s.cfg.wf → s.inp.remoteIn = s.rx.remotePrev →
    (s.host = .dispatch (.pause 0) → s.rx.cstate ≠ 2 → s.rx.cstate ≠ 3 →
      ∃ t, exec (.wait (1 + f + c + 1)) s = .next t ∧ t.rx.cstate = s.rx.cstate ∧
        t.tx.phase = .clkHi ∧ t.tx.pay = payloadOf s.rx.cstate ∧
        t.host = .dispatch (.sending s.rx.cstate false) ∧
        t.labels.filter (fun e => e.label.ofHostSide) =
          [⟨s.now + 1, .txStart s.rx.cstate⟩, ⟨s.now + 1 + f, .txDone⟩,
           ⟨s.now + 1 + f + c + 1, .txStart s.rx.cstate⟩]) ∧
    (∀ sent, s.host = .dispatch (.sending sent false) → sent ≠ 2 → s.rx.cstate ≠ 3 →
      ∃ t, exec (.wait (c + 1)) s = .next t ∧ t.tx.pay = payloadOf s.rx.cstate ∧
        t.host = .dispatch (.sending s.rx.cstate false) ∧
        t.labels.filter (fun e => e.label.ofHostSide) = [⟨s.now + c + 1, .txStart s.rx.cstate⟩]) ∧
    (s.host = .dispatch (.sending 2 false) →
      ∃ t, exec (.wait (p + 1)) s = .next t ∧ t.tx.pay = payloadOf 2 ∧
        t.host = .dispatch (.sending 2 true) ∧
        t.labels.filter (fun e => e.label.ofHostSide) = [⟨s.now + p + 1, .txStart 2⟩]) ∧
    (∀ sent, s.host = .dispatch (.sending sent true) →
      ∃ t, exec (.wait 1) s = .next t ∧ t.rx.cstate = 0 ∧ t.host = .dispatch (.pause c) ∧
        t.labels.filter (fun e => e.label.ofHostSide) = [⟨s.now + 1, .stateClr⟩])
end

