-- ==== Sys2Proof/Laws/State.lean ====
section
/-! SUPPORT. One lemma per field and update of the state: the observer's fresh start, the labels, an
operation on one half. -/

namespace Sys2Proof.Machine

variable (s : State) (f : RxOp) (g : TxOp) (ls : List Label)

@[simp] theorem State.fresh_rx : s.fresh.rx = s.rx := rfl
@[simp] theorem State.fresh_tx : s.fresh.tx = s.tx := rfl
@[simp] theorem State.fresh_cfg : s.fresh.cfg = s.cfg := rfl
@[simp] theorem State.fresh_inp : s.fresh.inp = s.inp := rfl
@[simp] theorem State.fresh_host : s.fresh.host = s.host := rfl
@[simp] theorem State.fresh_stim : s.fresh.stim = s.stim := rfl
@[simp] theorem State.fresh_now : s.fresh.now = s.now := rfl
@[simp] theorem State.fresh_labels : s.fresh.labels = [] := rfl
@[simp] theorem State.fresh_result : s.fresh.result = .none := rfl
@[simp] theorem State.fresh_fresh : s.fresh.fresh = s.fresh := rfl
@[simp] theorem State.fresh_restInputs : s.fresh.restInputs = s.restInputs := rfl

@[simp] theorem State.emit_rx : (s.emit ls).rx = s.rx := rfl
@[simp] theorem State.emit_tx : (s.emit ls).tx = s.tx := rfl
@[simp] theorem State.emit_cfg : (s.emit ls).cfg = s.cfg := rfl
@[simp] theorem State.emit_inp : (s.emit ls).inp = s.inp := rfl
@[simp] theorem State.emit_host : (s.emit ls).host = s.host := rfl
@[simp] theorem State.emit_stim : (s.emit ls).stim = s.stim := rfl
@[simp] theorem State.emit_now : (s.emit ls).now = s.now := rfl
@[simp] theorem State.emit_labels : (s.emit ls).labels = s.labels ++ ls.map (Event.mk s.now) := rfl
@[simp] theorem State.emit_result : (s.emit ls).result = s.result := rfl

@[simp] theorem State.onRx_rx : (s.onRx f).rx = (f s.rx).1 := rfl
@[simp] theorem State.onRx_tx : (s.onRx f).tx = s.tx := rfl
@[simp] theorem State.onRx_cfg : (s.onRx f).cfg = s.cfg := rfl
@[simp] theorem State.onRx_inp : (s.onRx f).inp = s.inp := rfl
@[simp] theorem State.onRx_host : (s.onRx f).host = s.host := rfl
@[simp] theorem State.onRx_stim : (s.onRx f).stim = s.stim := rfl
@[simp] theorem State.onRx_now : (s.onRx f).now = s.now := rfl
@[simp] theorem State.onRx_labels :
    (s.onRx f).labels = s.labels ++ (f s.rx).2.map (Event.mk s.now) := rfl
@[simp] theorem State.onRx_result : (s.onRx f).result = s.result := rfl

@[simp] theorem State.onTx_rx : (s.onTx g).rx = s.rx := rfl
@[simp] theorem State.onTx_tx : (s.onTx g).tx = (g s.tx).1 := rfl
@[simp] theorem State.onTx_cfg : (s.onTx g).cfg = s.cfg := rfl
@[simp] theorem State.onTx_inp : (s.onTx g).inp = s.inp := rfl
@[simp] theorem State.onTx_host : (s.onTx g).host = s.host := rfl
@[simp] theorem State.onTx_stim : (s.onTx g).stim = s.stim := rfl
@[simp] theorem State.onTx_now : (s.onTx g).now = s.now := rfl
@[simp] theorem State.onTx_labels :
    (s.onTx g).labels = s.labels ++ (g s.tx).2.map (Event.mk s.now) := rfl
@[simp] theorem State.onTx_result : (s.onTx g).result = s.result := rfl

/-- An operation on the timer and decoder half, written out. -/
theorem State.onRx_eq :
    s.onRx f = { s with rx := (f s.rx).1, labels := s.labels ++ (f s.rx).2.map (Event.mk s.now) } := rfl

/-- An operation on the transmitter half, written out. -/
theorem State.onTx_eq :
    s.onTx g = { s with tx := (g s.tx).1, labels := s.labels ++ (g s.tx).2.map (Event.mk s.now) } := rfl

@[simp] theorem State.said_append_emit : (s.emit ls).said = s.said ++ ls := by
  simp [State.said, Function.comp_def]

@[simp] theorem State.onRx_said : (s.onRx f).said = s.said ++ (f s.rx).2 := by
  simp [State.said, Function.comp_def]

@[simp] theorem State.onTx_said : (s.onTx g).said = s.said ++ (g s.tx).2 := by
  simp [State.said, Function.comp_def]

@[simp] theorem State.fresh_said : s.fresh.said = [] := rfl

/-! ### Projections of a tick -/

variable (inp : Inputs)

@[simp] theorem runTick_rx : (runTick g inp s).rx = (rxTick inp s.rx).1 := rfl
@[simp] theorem runTick_tx : (runTick g inp s).tx = (g s.tx).1 := rfl
@[simp] theorem runTick_cfg : (runTick g inp s).cfg = s.cfg := rfl
@[simp] theorem runTick_inp : (runTick g inp s).inp = inp := rfl
@[simp] theorem runTick_host : (runTick g inp s).host = s.host := rfl
@[simp] theorem runTick_stim : (runTick g inp s).stim = s.stim := rfl
@[simp] theorem runTick_now : (runTick g inp s).now = s.now + 1 := rfl
@[simp] theorem runTick_result : (runTick g inp s).result = s.result := rfl

@[simp] theorem runTick_labels : (runTick g inp s).labels =
    s.labels ++ ((rxTick inp s.rx).2 ++ (g s.tx).2).map (Event.mk (s.now + 1)) := by
  simp [runTick]

@[simp] theorem runTick_said : (runTick g inp s).said = s.said ++ ((rxTick inp s.rx).2 ++ (g s.tx).2) := by
  rw [State.said, runTick_labels]
  simp [State.said, Function.comp_def]

/-- A tick without reset is a tick with TXSTEP (R200). -/
theorem tick_of_no_rst (h : inp.rst = false) : tick inp s = runTick (txStepOp s.cfg inp) inp s := by
  simp [tick, h]

theorem tick_of_rst (h : inp.rst = true) : tick inp s = { s with inp := inp }.resetTick := by
  simp [tick, h]

theorem tick_rx (h : inp.rst = false) : (tick inp s).rx = (rxTick inp s.rx).1 := by
  simp [tick_of_no_rst s inp h]

theorem tick_tx (h : inp.rst = false) : (tick inp s).tx = (txStepOp s.cfg inp s.tx).1 := by
  simp [tick_of_no_rst s inp h]

theorem tick_now (h : inp.rst = false) : (tick inp s).now = s.now + 1 := by
  simp [tick_of_no_rst s inp h]

theorem tick_said (h : inp.rst = false) :
    (tick inp s).said = s.said ++ (rxTick inp s.rx).2 ++ (txStepOp s.cfg inp s.tx).2 := by
  simp [tick_of_no_rst s inp h]

theorem tick_labels (h : inp.rst = false) :
    (tick inp s).labels = s.labels ++
      ((rxTick inp s.rx).2 ++ (txStepOp s.cfg inp s.tx).2).map (Event.mk (s.now + 1)) := by
  simp [tick_of_no_rst s inp h]

/-- What no tick touches, and the inputs it samples. -/
theorem tick_frame : (tick inp s).cfg = s.cfg ∧ (tick inp s).stim = s.stim ∧
    (tick inp s).host = s.host ∧ (tick inp s).result = s.result ∧ (tick inp s).inp = inp := by
  unfold tick
  split <;> exact ⟨rfl, rfl, rfl, rfl, rfl⟩

@[simp] theorem tick_cfg : (tick inp s).cfg = s.cfg := (tick_frame s inp).1
@[simp] theorem tick_stim : (tick inp s).stim = s.stim := (tick_frame s inp).2.1
@[simp] theorem tick_host : (tick inp s).host = s.host := (tick_frame s inp).2.2.1
@[simp] theorem tick_result : (tick inp s).result = s.result := (tick_frame s inp).2.2.2.1
@[simp] theorem tick_inp : (tick inp s).inp = inp := (tick_frame s inp).2.2.2.2

end Sys2Proof.Machine
end

