-- ==== Sys2Proof/Laws/Decode.lean ====
section
/-! SUPPORT. The little-endian fields read back what was written, and the input vector too. -/

namespace Sys2Proof

/-- A field reads back its value, modulo its width, and leaves what follows it. -/
theorem takeLE_leBytes (n : Nat) : ∀ (v : Nat) (rest : List Byte),
    takeLE n (leBytes n v ++ rest) = some (v % 256 ^ n, rest) := by
  induction n with
  | zero => intro v rest; simp [takeLE, leBytes, Nat.mod_one]
  | succ n ih =>
    intro v rest
    simp only [leBytes, List.cons_append, takeLE, ih, Option.map_some, BitVec.toNat_ofNat]
    have hm : v % 256 ^ (n + 1) = v % 256 + 256 * (v / 256 % 256 ^ n) := by
      rw [Nat.pow_add_one', Nat.mod_mul]
    rw [hm]

@[simp] theorem leBytes_length (n v : Nat) : (leBytes n v).length = n := by
  induction n generalizing v with
  | zero => rfl
  | succ n ih => simp [leBytes, ih]

@[simp] theorem pairBytes_length (ps : List (Dur × Dur)) : (pairBytes ps).length = 4 * ps.length := by
  induction ps with
  | nil => rfl
  | cons p ps ih => simp [pairBytes, ih]; omega

/-- (mark, space) pairs read back. -/
theorem takePairs_pairBytes (ps : List (Dur × Dur)) (rest : List Byte) :
    takePairs ps.length (pairBytes ps ++ rest) = some (ps, rest) := by
  induction ps with
  | nil => rfl
  | cons p ps ih =>
    have h1 : p.1.toNat % 256 ^ 2 = p.1.toNat := Nat.mod_eq_of_lt p.1.isLt
    have h2 : p.2.toNat % 256 ^ 2 = p.2.toNat := Nat.mod_eq_of_lt p.2.isLt
    simp only [List.length_cons, takePairs, pairBytes, List.append_assoc, takeLE_leBytes, h1, h2, ih,
      Option.map_some, BitVec.ofNat_toNat, BitVec.setWidth_eq]

@[simp] theorem Inputs.ofVector_toVector (i : Inputs) : Inputs.ofVector i.toVector = i := by
  obtain ⟨a, b, c, d, e⟩ := i
  revert a b c d e
  decide

end Sys2Proof
end

