-- ==== Sys2Proof/Laws/Ops.lean ====
section
/-! SUPPORT. One lemma per shared operation: everything it can do. -/

namespace Sys2Proof.Machine

/-! ### The payload ROM -/

/-- The ROM is in canonical form; no operation writes it (R54). -/
theorem rom_wf : Memory.wf Config.rom := by decide

/-- PAYLOAD(sel) for the three selects, and none for the reserved one (R51, R52). -/
theorem readPayload_eq (sel : Sel) :
    readPayload sel = if sel = 3 then none else some (payloadOf sel) := by
  revert sel; decide

@[simp] theorem payByte_bit (p : Payload) (i j : BitVec 3) :
    payBit p i j = p.getLsbD (8 * (7 - i.toNat) + j.toNat) := by
  have := j.isLt
  simp [payBit, payByte]
  omega

/-! ### Composition -/

@[simp] theorem seqRx_fst (f g : RxOp) (r : Rx) : (seqRx f g r).1 = (g (f r).1).1 := rfl
@[simp] theorem seqRx_snd (f g : RxOp) (r : Rx) : (seqRx f g r).2 = (f r).2 ++ (g (f r).1).2 := rfl
@[simp] theorem whenRx_true (f : RxOp) (r : Rx) : whenRx true f r = f r := rfl
@[simp] theorem whenRx_false (f : RxOp) (r : Rx) : whenRx false f r = (r, []) := rfl
@[simp] theorem rejectWith_fst (l : Label) (r : Rx) : (rejectWith l r).1 = ctxReset r := rfl
@[simp] theorem rejectWith_snd (l : Label) (r : Rx) : (rejectWith l r).2 = [l] := rfl

/-! ### The timer -/

/-- ELAPSED as a number (R110). -/
theorem elapsedOf_toNat (r : Rx) : (elapsedOf r).toNat = r.time := by
  have h1 := r.ovf.isLt
  have h2 := r.cnt.isLt
  have h3 : r.ovf.toNat <<< 8 = r.ovf.toNat * 256 := by rw [Nat.shiftLeft_eq]
  simp only [elapsedOf, Rx.time, BitVec.toNat_add, BitVec.toNat_shiftLeft, BitVec.toNat_setWidth, h3,
    Nat.mod_eq_of_lt (show r.ovf.toNat < 2 ^ 16 by omega),
    Nat.mod_eq_of_lt (show r.cnt.toNat < 2 ^ 16 by omega)]
  omega

theorem elapsedOf_eq (r : Rx) : elapsedOf r = BitVec.ofNat 16 r.time := by
  rw [← elapsedOf_toNat, BitVec.ofNat_toNat, BitVec.setWidth_eq]

/-- ADVANCE: one of a plain count, an overflow, a timeout (R111 to R113). -/
theorem advanceOp_cases (r : Rx) :
    (r.cnt ≠ 255 ∧ advanceOp r = ({ r with cnt := r.cnt + 1 }, [])) ∨
    (r.cnt = 255 ∧ r.ovf ≠ 253 ∧ advanceOp r = ({ r with cnt := 0, ovf := r.ovf + 1 }, [])) ∨
    (r.cnt = 255 ∧ r.ovf = 253 ∧ advanceOp r = (ctxReset { r with cnt := 0 }, [.timeout])) := by
  by_cases hc : r.cnt = 255
  · have ha : advanceOp r = ovfOp { r with cnt := 0 } := by rw [advanceOp, if_pos hc]
    by_cases ho : r.ovf = 253
    · refine .inr (.inr ⟨hc, ho, ?_⟩)
      rw [ha, ovfOp, if_pos (show r.ovf + 1 = Config.timeoutTally by rw [ho]; rfl)]
      rfl
    · have hne : r.ovf + 1 ≠ Config.timeoutTally := by
        intro h
        apply ho
        have h1 : r.ovf + 1 - 1 = Config.timeoutTally - 1 := by rw [h]
        rwa [BitVec.add_sub_cancel] at h1
      refine .inr (.inl ⟨hc, ho, ?_⟩)
      rw [ha, ovfOp, if_neg hne]
  · exact .inl ⟨hc, by rw [advanceOp, if_neg hc]⟩

/-- ADVANCE leaves the changer state and the line sample alone. -/
theorem advanceOp_frame (r : Rx) :
    (advanceOp r).1.cstate = r.cstate ∧ (advanceOp r).1.remotePrev = r.remotePrev := by
  rcases advanceOp_cases r with ⟨_, h⟩ | ⟨_, _, h⟩ | ⟨_, _, h⟩ <;> simp [h, ctxReset]

/-! ### The decoder -/

/-- The branch of RISE: exactly one of six, with its condition (R127 to R133). -/
theorem riseBranch_cases (h l : Dur) (r : Rx) :
    (isStartMark h = true ∧ isStartSpace l = true ∧ riseBranch h l r = startOp r) ∨
    (¬(isStartMark h = true ∧ isStartSpace l = true) ∧
      ((r.decoding = false ∧ riseBranch h l r = rejectWith .rejectIdle r) ∨
       (r.decoding = true ∧ isBitMark h = false ∧ riseBranch h l r = rejectWith .rejectMark r) ∨
       (r.decoding = true ∧ isBitMark h = true ∧
         ((isOneSpace l = true ∧ riseBranch h l r = bitOp true r) ∨
          (isOneSpace l = false ∧ isZeroSpace l = true ∧ riseBranch h l r = bitOp false r) ∨
          (isOneSpace l = false ∧ isZeroSpace l = false ∧
            riseBranch h l r = rejectWith .rejectSpace r))))) := by
  unfold riseBranch
  cases isStartMark h <;> cases isStartSpace l <;> cases r.decoding <;> cases isBitMark h <;>
    cases isOneSpace l <;> cases isZeroSpace l <;> simp

/-- The changer state after COMMAND (R150). -/
theorem command_eq (c : Byte) (r : Rx) : command c r = { r with cstate := afterCommand c r.cstate } := by
  unfold command afterCommand Config.cmdSelectA Config.cmdSelectB Config.cmdDeselect
    Config.stPlay Config.stStop
  split
  · rfl
  · split <;> rfl

/-- COMPLETE: the context is reset, the changer state is the word's, the label says which (R134). -/
theorem completeOp_eq (r : Rx) :
    completeOp r = (ctxReset { r with cstate := afterWord r.cmdBuf r.cstate }, [doneLabel r.cmdBuf]) := by
  unfold completeOp afterWord doneLabel
  cases validWord r.cmdBuf <;> simp [acceptWord, discardWord, command_eq, ctxReset]

/-- An edge operation clears the counter and the tally (R114). -/
@[simp] theorem edgeOp_fst (f : Dur → RxOp) (r : Rx) :
    (edgeOp f r).1 = { (f (elapsedOf r) r).1 with cnt := 0, ovf := 0 } := rfl
@[simp] theorem edgeOp_snd (f : Dur → RxOp) (r : Rx) : (edgeOp f r).2 = (f (elapsedOf r) r).2 := rfl

/-- An edge tick: no edge, a rising edge, a falling edge (R82). -/
theorem edgeTick_cases (level : Bool) (r : Rx) :
    (level = r.remotePrev ∧ edgeTick level r = (r, [])) ∨
    (level = true ∧ r.remotePrev = false ∧ edgeTick level r = edgeOp riseOp r) ∨
    (level = false ∧ r.remotePrev = true ∧ edgeTick level r = edgeOp fallOp r) := by
  unfold edgeTick
  cases level <;> cases r.remotePrev <;> simp

/-- A tick of the timer and decoder half without an edge and without a clear is ADVANCE. -/
theorem rxTick_quiet (inp : Inputs) (r : Rx) (hc : inp.stateClr = false)
    (hl : inp.remoteIn = r.remotePrev) : rxTick inp r = advanceOp r := by
  have hf := advanceOp_frame r
  have he : edgeTick inp.remoteIn (advanceOp r).1 = ((advanceOp r).1, []) := by
    rw [edgeTick]; simp [hl, hf.2]
  have h1 : (rxTick inp r).1 = (advanceOp r).1 := by
    simp only [rxTick, seqRx_fst, hc, whenRx_false, he, samplePrev]
    rw [hl, ← hf.2]
  have h2 : (rxTick inp r).2 = (advanceOp r).2 := by
    simp [rxTick, hc, he, samplePrev]
  exact Prod.ext h1 h2

/-! ### The transmitter -/

theorem Tx.busy_iff (t : Tx) : t.busy = true ↔ t.phase ≠ .idle := by simp [Tx.busy]

/-- A request: accepted in IDLE with a select other than 3, else nothing (R165, R169). -/
theorem txRequest_eq (start : Bool) (sel : Sel) (t : Tx) :
    txRequest start sel t =
      if start = true ∧ t.phase = .idle ∧ sel ≠ 3 then
        (enterCell 0 7 { t with pay := payloadOf sel }, [.txStart sel])
      else (t, []) := by
  unfold txRequest
  by_cases h : start = true ∧ t.phase = .idle ∧ sel ≠ 3
  · rw [if_pos h]
    obtain ⟨h1, h2, h3⟩ := h
    rw [if_pos (by simp [h1, h2]; exact h3), txStartOp, readPayload_eq, if_neg h3]
  · rw [if_neg h]
    rw [if_neg]
    simpa [Config.stReserved, and_assoc] using h

/-- TXSTEP in IDLE looks for a request, elsewhere it counts down and hands over (R167). -/
theorem txStepOp_idle (c : Cfg) (inp : Inputs) (t : Tx) (h : t.phase = .idle) :
    txStepOp c inp t = txRequest inp.txStart inp.txSel t := by
  rw [txStepOp, phaseArm, stepArm, if_pos h]

theorem txStepOp_timed (c : Cfg) (inp : Inputs) (t : Tx) (h : t.phase ≠ .idle) :
    txStepOp c inp t = countDown (handOver c t.phase) t := by
  rw [txStepOp, phaseArm, stepArm, if_neg h]

/-- A timed phase above its last tick only counts (R167). -/
theorem countDown_count (last : TxOp) (t : Tx) (h : 1 < t.dly) :
    countDown last t = ({ t with dly := t.dly - 1 }, []) := by
  rw [countDown, if_pos h]

theorem countDown_last (last : TxOp) (t : Tx) (h : ¬1 < t.dly) : countDown last t = last t := by
  rw [countDown, if_neg h]

/-- While busy TXSTEP reads no input (R64, R167). -/
theorem txStepOp_busy (c : Cfg) (i j : Inputs) (t : Tx) (h : t.busy = true) :
    txStepOp c i t = txStepOp c j t := by
  have hp := (Tx.busy_iff t).1 h
  rw [txStepOp_timed c i t hp, txStepOp_timed c j t hp]

/-! ### Repetition and the ticks of the world -/

@[simp] theorem times_zero (f : State → State) (s : State) : times f 0 s = s := rfl
theorem times_succ (f : State → State) (n : Nat) (s : State) : times f (n + 1) s = times f n (f s) := rfl

theorem times_add (f : State → State) (m n : Nat) (s : State) :
    times f (m + n) s = times f n (times f m s) := by
  induction m generalizing s with
  | zero => simp
  | succ m ih => rw [Nat.succ_add, times_succ, times_succ, ih]

/-- What holds at the start and is kept by every round holds at the end. -/
theorem times_keeps {P : State → Prop} (f : State → State) (hf : ∀ s, P s → P (f s)) :
    ∀ n s, P s → P (times f n s)
  | 0, _, h => h
  | n + 1, s, h => times_keeps f hf n (f s) (hf s h)

@[simp] theorem worldTick_cfg (level : Bool) (s : State) : (worldTick level s).cfg = s.cfg := by
  simp [worldTick]
@[simp] theorem worldTick_stim (level : Bool) (s : State) : (worldTick level s).stim = s.stim := by
  simp [worldTick]
@[simp] theorem worldTick_result (level : Bool) (s : State) : (worldTick level s).result = s.result := by
  simp [worldTick]

/-- With no host a tick of the world is STEP with nothing asserted (R86). -/
theorem worldTick_absent (level : Bool) (s : State) (h : s.host = .absent) :
    worldTick level s = tick { s.restInputs with remoteIn := level } s := by
  unfold worldTick
  rw [h]
  show tick { s.restInputs with remoteIn := level } { s with host := .absent } = _
  rw [← h]

/-! ### Transmitter calls -/

@[simp] theorem plainTick_cfg (s : State) : (plainTick s).cfg = s.cfg := tick_cfg s _
@[simp] theorem plainTick_stim (s : State) : (plainTick s).stim = s.stim := tick_stim s _
@[simp] theorem plainTick_host (s : State) : (plainTick s).host = s.host := tick_host s _
@[simp] theorem plainTick_result (s : State) : (plainTick s).result = s.result := tick_result s _

/-- In a tick with nothing asserted the transmitter runs TXSTEP. -/
theorem plainTick_tx (s : State) : (plainTick s).tx = (txStepOp s.cfg s.restInputs s.tx).1 :=
  tick_tx s _ rfl

/-- A tick with nothing asserted asserts nothing in the next. -/
theorem plainTick_rest (s : State) : (plainTick s).restInputs = s.restInputs := by
  simp [plainTick, State.restInputs]

/-- The first tick of a call from IDLE: the cell of the operand's byte `i`, bit `j` begins. -/
theorem callBegin_idle (c : Cfg) (p : Payload) (i j : BitVec 3) (t : Tx) (h : t.phase = .idle) :
    callBegin c p i j t = (enterCell i j { t with pay := p }, []) := by
  simp [callBegin, stepArm, h]

/-- The tick after a call of less than a frame, from the last tick of a phase. -/
theorem callEnd_last (t : Tx) (hp : t.phase ≠ .idle) (hd : ¬1 < t.dly) : callEnd t = toIdle t := by
  rw [callEnd, stepArm, if_neg hp, countDown_last _ _ hd]

/-- Each further tick of a call is a tick with nothing asserted. -/
theorem callTicks_succ (p : Payload) (i j : BitVec 3) (n : Nat) (s : State) :
    callTicks p i j (n + 1) s = plainTick (callTicks p i j n s) := by
  rw [callTicks, times_add plainTick n 1]
  rfl

/-- What a call never touches. -/
theorem callTicks_frame (p : Payload) (i j : BitVec 3) (n : Nat) (s : State) :
    (callTicks p i j n s).cfg = s.cfg ∧ (callTicks p i j n s).stim = s.stim ∧
    (callTicks p i j n s).host = s.host := by
  induction n with
  | zero => exact ⟨rfl, rfl, rfl⟩
  | succ n ih => rw [callTicks_succ]; simpa using ih

/-- A call while busy has no effect (R169). -/
theorem txCall_busy (w : List Seg) (p : Payload) (i j : BitVec 3) (leave : State → State) (s : State)
    (h : s.tx.busy = true) : txCall w p i j leave s = s := by
  rw [txCall, if_pos h]

end Sys2Proof.Machine
end

