-- ==== Sys2Proof/Tests/Slice0.lean ====
section
/-! SUPPORT. Tests: the ill-formed terms WellFormed refuses, every constructor's word written out from
30_encoding.md and the opcode table (with the format byte of assumption 4), single steps on vectors of
95_test_vectors.md, and for every statement with hypotheses a state and operands that meet them. -/

namespace Sys2Proof.Tests

open Sys2Proof Sys2Proof.Machine

/-! ### Helpers -/

/-- The state after an operation. -/
def after (i : Instr) (s : State) : State :=
  match exec i s with
  | .next t => t
  | _ => s

/-- What the decoder reads. -/
def reads (bs : List Byte) : Option (Instr × List Byte) :=
  match decode bs with
  | .ok p => some p
  | .error _ => none

/-- Why the decoder rejects. -/
def rejects (bs : List Byte) : Option Reject :=
  match decode bs with
  | .ok _ => none
  | .error why => some why

/-- No input asserted, the line low. -/
def low : Inputs := Inputs.none
/-- No input asserted, the line high. -/
def high : Inputs := { Inputs.none with remoteIn := true }

/-- A state with a chosen timer and decoder half. -/
def withRx (r : Rx) : State := { State.reset with rx := r }

/-- A state with a chosen transmitter half. -/
def withTx (t : Tx) : State := { State.reset with tx := t }

/-- A decoder that holds `n` bits `buf` after the mark `h`, with `e` ticks elapsed. -/
def decoderAt (decoding : Bool) (n : BitVec 6) (buf : BitVec 32) (h : Dur) (e : Nat) : State :=
  withRx { Rx.reset with cnt := BitVec.ofNat 8 e, ovf := BitVec.ofNat 8 (e / 256), hiDur := h
                         decoding := decoding, nbits := n, cmdBuf := buf }

/-- A sequencer in a phase. -/
def phaseAt (p : TxPhase) (dly : BitVec 16) (byte bit : BitVec 3) : State :=
  withTx { phase := p, dly := dly, byte := byte, bit := bit, pay := 0x33FFCF81CF7F7F3B
           dataOut := false, clockOut := p == .clkHi, strobeOut := p != .stbLow }

/-- A changer state. -/
def changerAt (c : Sel) : State := withRx { Rx.reset with cstate := c }

/-! ### WellFormed refuses the ill-formed -/

theorem test_wf_reserved_refuses_known : (Instr.cmdReserved 0x08).wellFormed = false ∧
    (Instr.cmdReserved 0xA4).wellFormed = false ∧ (Instr.cmdReserved 0x10).wellFormed = false := by decide
theorem test_wf_invalid_refuses_valid : (Instr.wordInvalid 0x532CA45B).wellFormed = false := by decide
theorem test_wf_txstart_refuses_three : (Instr.txStart 3).wellFormed = false := by decide
theorem test_wf_counts_refuse_33_bits :
    (Instr.hi 4294967296).wellFormed = false ∧ (Instr.lo 4294967296).wellFormed = false ∧
    (Instr.wait 4294967296).wellFormed = false ∧ (Instr.idle 4294967296).wellFormed = false ∧
    (Instr.pulse 4294967296 1).wellFormed = false ∧ (Instr.pulse 1 4294967296).wellFormed = false := by
  decide

/-- 32 symbols of shortest marks and spaces. -/
def shortest : List (Dur × Dur) := List.replicate 32 (391, 391)

theorem test_wf_rframe_refuses :
    (Instr.rframe 5400 4500 shortest 1).wellFormed = false ∧
    (Instr.rframe 9000 6300 shortest 1).wellFormed = false ∧
    (Instr.rframe 9000 4500 (List.replicate 31 (650, 650)) 1).wellFormed = false ∧
    (Instr.rframe 9000 4500 ((390, 650) :: List.replicate 31 (650, 650)) 1).wellFormed = false ∧
    (Instr.rframe 9000 4500 ((650, 910) :: List.replicate 31 (650, 650)) 1).wellFormed = false ∧
    (Instr.rframe 9000 4500 shortest 0).wellFormed = false := by decide

/-! ### Decoding, on words written out from the tables -/

/-- R82: `{remote_prev, remote_in}`. -/
theorem test_decode_edge :
    reads [1, 0b00] = some (.noedgeLo, []) ∧ reads [1, 0b11] = some (.noedgeHi, []) ∧
    reads [1, 0b01] = some (.rise, []) ∧ reads [1, 0b10, 5] = some (.fall, [5]) := by decide

/-- R72: `{M, SP}` in bits 3:0, `decoding` in bit 4. -/
theorem test_decode_symbol :
    reads [2, 0b01011] = some (.start, []) ∧ reads [2, 0b11011] = some (.start, []) ∧
    reads [2, 0b00110] = some (.rejectIdle, []) ∧ reads [2, 0b10010] = some (.rejectMark, []) ∧
    reads [2, 0b10110] = some (.bit1, []) ∧ reads [2, 0b10101] = some (.bit0, []) ∧
    reads [2, 0b10111] = some (.rejectSpace, []) ∧ reads [2, 0b10100] = some (.rejectSpace, []) := by decide

/-- R74, R75: sync, command, check; the bytes stand least significant first. -/
theorem test_decode_cword :
    reads [3, 0xF7, 0x08, 0x2C, 0x53] = some (.cmdSelectA, []) ∧
    reads [3, 0x5B, 0xA4, 0x2C, 0x53] = some (.cmdSelectB, []) ∧
    reads [3, 0xEF, 0x10, 0x2C, 0x53] = some (.cmdDeselect, []) ∧
    reads [3, 0xDF, 0x20, 0x2C, 0x53] = some (.cmdReserved 0x20, []) ∧
    reads [3, 0x5A, 0xA4, 0x2C, 0x53] = some (.wordInvalid 0x532CA45A, []) := by decide

/-- R51, R81: byte 0 of the payload is most significant. -/
theorem test_decode_payload :
    reads [4, 0x7B, 0x7F, 0xFF, 0xFF, 0xFF, 0xFF, 0xFF, 0x73] = some (.payloadInit, []) ∧
    reads [4, 0x3B, 0x7F, 0x7F, 0xCF, 0x81, 0xCF, 0xFF, 0x33] = some (.payloadPlay, []) ∧
    reads [4, 0x1B, 0x7F, 0xFF, 0xFF, 0xFF, 0xFF, 0xFF, 0x13] = some (.payloadStop, []) ∧
    rejects [4, 0, 0, 0, 0, 0, 0, 0, 0] = some (.notAPayload 0) := by decide

/-- R83. -/
theorem test_decode_enum :
    reads [5, 0] = some (.cstateInit, []) ∧ reads [5, 1] = some (.cstatePlay, []) ∧
    reads [5, 2] = some (.cstateStop, []) ∧ reads [5, 3] = some (.cstateReserved, []) := by decide

/-- R83, R166. -/
theorem test_decode_phase :
    reads [6, 0] = some (.phaseIdle, []) ∧ reads [6, 1] = some (.phaseClkHi, []) ∧
    reads [6, 2] = some (.phaseClkLo, []) ∧ reads [6, 3] = some (.phaseStbSetup, []) ∧
    reads [6, 4] = some (.phaseStbLow, []) ∧ reads [6, 5] = some (.phaseStbHold, []) ∧
    reads [6, 6] = some (.phaseByteGap, []) ∧ reads [6, 7] = some (.phaseInterbyte, []) := by decide

/-- R161 to R164. -/
theorem test_decode_transmitter :
    reads [7, 1] = some (.txBit true, []) ∧ reads [8, 1, 0x33] = some (.txByteFramed 0x33, []) ∧
    reads [8, 0, 0xCF] = some (.txBytePlain 0xCF, []) ∧
    reads [9, 8, 7, 6, 5, 4, 3, 2, 1] = some (.txFrame 0x0102030405060708, []) := by decide

/-- The TICK rows; STEP with `{rst, state_clr, tx_start, tx_sel[1:0], remote_in}`. -/
theorem test_decode_tick :
    reads [11, 0, 0b011011] =
      some (.step { rst := false, stateClr := true, txStart := true, txSel := 1, remoteIn := true }, []) ∧
    reads [11, 0, 0b100100] =
      some (.step { rst := true, stateClr := false, txStart := false, txSel := 2, remoteIn := false }, []) ∧
    reads [11, 1] = some (.txStep, []) ∧ reads [11, 2] = some (.advance, []) ∧
    reads [11, 3] = some (.ovf, []) ∧ reads [11, 4] = some (.timeout, []) ∧
    reads [11, 5] = some (.tmrClr, []) := by decide

/-- The HOST rows: one request in the input vector, `tx_phase != IDLE` in bit 6. -/
theorem test_decode_host :
    reads [12, 0b100000] = some (.reset, []) ∧ reads [12, 0b010000] = some (.stateClr, []) ∧
    reads [12, 0b001010] = some (.txStart 1, []) ∧ reads [12, 0b001110] = some (.txStartRefused 3, []) ∧
    reads [12, 0b1001010] = some (.txStartRefused 1, []) ∧
    rejects [12, 0b011000] = some (.twoRequests 0b011000) ∧
    rejects [12, 0b000001] = some (.noRequest 0b000001) := by decide

/-- The FUNC rows. -/
theorem test_decode_func :
    reads [13, 0, 0x5B, 0xA4, 0x2C, 0x53] = some (.valid 0x532CA45B, []) ∧
    reads [13, 1] = some (.elapsed, []) ∧ reads [13, 2, 0x8A, 2, 0x28, 35] = some (.within 650 9000, []) ∧
    reads [13, 3] = some (.ctxReset, []) ∧ reads [13, 4] = some (.complete, []) ∧
    reads [13, 5, 0xA4] = some (.command 0xA4, []) := by decide

/-- The STIMULUS rows and HOSTPROG; counts of 32 bits. -/
theorem test_decode_stimulus :
    reads [14, 0, 0x28, 35, 0, 0] = some (.hi 9000, []) ∧ reads [14, 1, 100, 0, 0, 0] = some (.lo 100, []) ∧
    reads [14, 2, 2] = some (.tx 2, []) ∧ reads [14, 3] = some (.clr, []) ∧
    reads [14, 4, 2, 0, 0, 0] = some (.wait 2, []) ∧
    reads [14, 5, 0x28, 35, 0, 0, 0x94, 17, 0, 0] = some (.pulse 9000 4500, []) ∧
    reads [15, 0] = some (.dispatch, []) := by decide

/-- The pseudo-items. -/
theorem test_decode_pseudo_items :
    reads [14, 6] = some (.startItem, []) ∧ reads [14, 7] = some (.b1, []) ∧
    reads [14, 8] = some (.b0, []) ∧ reads [14, 9, 0x5B, 0xA4, 0x2C, 0x53] = some (.word 0x532CA45B, []) ∧
    reads [14, 10, 0x20] = some (.cmd 0x20, []) ∧ reads [14, 11] = some (.close, []) ∧
    reads [14, 12, 0, 0, 1, 0] = some (.idle 65536, []) ∧ reads [14, 13, 1] = some (.txw 1, []) := by decide

/-- R73: start symbol, data symbols, closing mark. -/
theorem test_decode_rframe :
    reads (10 :: 0x28 :: 35 :: 0x94 :: 17 :: ((List.replicate 32 [(0x8A : Byte), 2, 0xD6, 6]).flatten ++ [0x8A, 2])) =
      some (.rframe 9000 4500 (List.replicate 32 (650, 1750)) 650, []) := by decide +kernel

/-- Codes outside the formats. -/
theorem test_decode_rejects :
    rejects [] = some .empty ∧ rejects [0, 1] = some (.unknownFormat 0) ∧
    rejects [1, 4] = some (.unknownCode 1 4) ∧ rejects [6, 8] = some (.unknownCode 6 8) ∧
    rejects [3, 1, 2, 3] = some (.truncated 3) ∧ rejects [14, 2, 4] = some (.unknownCode 14 4) := by decide

/-- Words as the opcode table numbers them. -/
theorem test_table_words :
    decodeTableWord 8 1 = some .rise ∧ decodeTableWord 4 11 = some .start ∧
    decodeTableWord 8 6 = some .bit1 ∧ decodeTableWord 3 6 = some .phaseByteGap ∧
    decodeTableWord 32 0x532C08F7 = some .cmdSelectA ∧
    decodeTableWord 64 0x13FFFFFFFFFF7F1B = some .payloadStop := by decide

/-! ### One step -/

/-- V-P1, V-P2. -/
theorem test_first_tick :
    (after (.step low) State.reset).rx = { Rx.reset with cnt := 1 } ∧
    (after (.step low) State.reset).labels = [] ∧
    (after (.step high) State.reset).rx = { Rx.reset with remotePrev := true } ∧
    (after (.step high) State.reset).labels = [⟨1, .rejectIdle⟩] := by decide

/-- V-P3, V-X2 (d). -/
theorem test_reset_overrides :
    (after (.step ⟨true, true, true, 1, true⟩) (phaseAt .stbLow 4 0 0)).tx = Tx.reset ∧
    (after (.step ⟨true, true, true, 1, true⟩) (phaseAt .stbLow 4 0 0)).said = [.reset] := by decide

/-- V-P4, V-P5. -/
theorem test_timeout_in_a_tick :
    (after (.step low) (decoderAt true 7 5 650 65023)).rx = Rx.reset ∧
    (after (.step low) (decoderAt true 7 5 650 65023)).said = [.timeout] ∧
    (after (.step high) (decoderAt true 7 5 650 65023)).said = [.timeout, .rejectIdle] := by decide

/-- V-P6: an overflow and an edge in one tick. -/
theorem test_fall_reads_the_new_tally :
    (after (.step low) (withRx { Rx.reset with cnt := 255, ovf := 34, remotePrev := true })).rx =
      { Rx.reset with hiDur := 8960 } := by decide

/-- V-P7: both halves in one tick. -/
theorem test_both_halves_move :
    (after (.step high) { decoderAt true 3 5 650 1749 with tx := (phaseAt .clkLo 1 3 0).tx }).said = [.bit1] ∧
    (after (.step high) { decoderAt true 3 5 650 1749 with tx := (phaseAt .clkLo 1 3 0).tx }).tx.phase =
      .byteGap ∧
    (after (.step high) { decoderAt true 3 5 650 1749 with tx := (phaseAt .clkLo 1 3 0).tx }).tx.dly = 205 := by
  decide

/-- V-P8. -/
theorem test_clear_and_request :
    (after (.step ⟨false, false, true, 2, true⟩) (changerAt 2)).said = [.stateClr, .txStart 2] ∧
    (after (.step ⟨false, false, true, 2, true⟩) (changerAt 2)).rx.cstate = 0 ∧
    (after (.step ⟨false, false, true, 2, true⟩) (changerAt 2)).tx.pay = 0x13FFFFFFFFFF7F1B := by decide

/-- V-S10. -/
theorem test_elapsed :
    (after .elapsed (withRx { Rx.reset with ovf := 35, cnt := 40 })).result = .ticks 9000 ∧
    (after .elapsed (withRx { Rx.reset with ovf := 253, cnt := 255 })).result = .ticks 65023 := by decide

/-- V-S1, V-C5, V-C6, V-C10. -/
theorem test_within :
    (after (.within 5400 9000) State.reset).result = .bit false ∧
    (after (.within 12599 9000) State.reset).result = .bit true ∧
    (after (.within 9 7) State.reset).result = .bit true ∧
    (after (.within 65023 9000) State.reset).result = .bit false ∧
    (after (.within 65535 65535) State.reset).result = .bit true := by decide

/-- V-T3, V-T8: the wrap of the counter, without and with TIMEOUT. -/
theorem test_advance_wraps :
    (after .advance (decoderAt false 0 0 0 255)).rx = { Rx.reset with ovf := 1 } ∧
    (after .advance (decoderAt false 0 0 0 255)).said = [] ∧
    (after .advance (decoderAt true 5 0xA 650 65023)).rx = Rx.reset ∧
    (after .advance (decoderAt true 5 0xA 650 65023)).said = [.timeout] := by decide

/-- OVF to the 254th tally; TMRCLR (R112, R114). -/
theorem test_timer_events :
    (after .ovf (decoderAt true 5 0xA 650 (253 * 256))).said = [.timeout] ∧
    (after .timeout (decoderAt true 5 0xA 650 7)).rx = { Rx.reset with cnt := 7 } ∧
    (after .tmrClr (decoderAt true 5 0xA 650 300)).rx.time = 0 := by decide

/-- V-D7: the window edges. -/
theorem test_rise_windows :
    (after .rise (decoderAt true 0 0 650 390)).said = [.rejectSpace] ∧
    (after .rise (decoderAt true 0 0 650 391)).said = [.bit0] ∧
    (after .rise (decoderAt true 0 0 650 909)).said = [.bit0] ∧
    (after .rise (decoderAt true 0 0 650 1050)).said = [.rejectSpace] ∧
    (after .rise (decoderAt true 0 0 650 1051)).said = [.bit1] ∧
    (after .rise (decoderAt true 0 0 650 2701)).said = [.rejectSpace] ∧
    (after .rise (decoderAt true 0 0 390 650)).said = [.rejectMark] ∧
    (after .rise (decoderAt true 0 0 9000 650)).said = [.rejectMark] := by decide

/-- V-S2, the last edge: BIT1, then DONE_VALID(A4), and the decoder idle (P1 @71,701). -/
theorem test_rise_completes :
    (after .rise (decoderAt true 31 0x2996522D 650 1750)).said = [.bit1, .doneValid 0xA4] ∧
    (after .rise (decoderAt true 31 0x2996522D 650 1750)).rx = { Rx.reset with cstate := 1 } := by decide

/-- V-S5: START inside a frame; FALL captures the mark. -/
theorem test_start_and_fall :
    (after .rise (decoderAt true 9 0xA6 9000 4500)).rx =
      { Rx.reset with hiDur := 9000, loDur := 4500, decoding := true } ∧
    (after .fall (decoderAt true 10 0x14C 650 1000)).rx =
      { Rx.reset with hiDur := 1000, decoding := true, nbits := 10, cmdBuf := 0x14C } := by decide

/-- R129 to R133 on their own. -/
theorem test_symbols :
    (after .start (decoderAt true 9 5 1 2)).rx = (decoderAt true 0 0 1 2).rx ∧
    (after .bit1 (decoderAt true 4 5 1 2)).rx = (decoderAt true 5 0xB 1 2).rx ∧
    (after .bit0 (decoderAt true 4 5 1 2)).rx = (decoderAt true 5 0xA 1 2).rx ∧
    (after .rejectIdle (decoderAt true 4 5 1 2)).rx = (decoderAt false 0 0 0 2).rx ∧
    (after .rejectMark (decoderAt true 4 5 1 2)).said = [.rejectMark] ∧
    (after .rejectSpace (decoderAt true 4 5 1 2)).said = [.rejectSpace] := by decide

/-- V-K1 to V-K5. -/
theorem test_changer :
    (after (.command 0x08) (changerAt 2)).rx.cstate = 1 ∧ (after (.command 0xA4) (changerAt 0)).rx.cstate = 1 ∧
    (after (.command 0x10) (changerAt 1)).rx.cstate = 2 ∧ (after (.command 0x09) (changerAt 2)).rx.cstate = 2 ∧
    (after .stateClr (changerAt 2)).rx.cstate = 0 ∧ (after .clr (changerAt 2)).rx.cstate = 0 := by decide

/-- V-D6, V-S4: a reserved byte, a wrong check byte. -/
theorem test_words_without_effect :
    (after (.cmdReserved 0x20) (changerAt 1)).said = [.doneValid 0x20] ∧
    (after (.cmdReserved 0x20) (changerAt 1)).rx.cstate = 1 ∧
    (after (.wordInvalid 0x532CA45A) (changerAt 2)).said = [.doneInvalid 0x532CA45A] ∧
    (after .complete (decoderAt true 31 0x532CA45A 650 3)).said = [.doneInvalid 0x532CA45A] ∧
    (after .cmdDeselect (changerAt 1)).rx.cstate = 2 ∧ (after .cmdSelectA (changerAt 2)).rx.cstate = 1 ∧
    (after .cmdSelectB (changerAt 0)).said = [.doneValid 0xA4] := by decide

/-- R135. -/
theorem test_valid :
    (after (.valid 0x532CFF00) State.reset).result = .bit true ∧
    (after (.valid 0x532DA45B) State.reset).result = .bit false := by decide

/-- V-X1: ticks 3 and 4, 8, 19, 35. -/
theorem test_txstart_and_cells :
    (after (.txStart 1) State.reset).tx = (phaseAt .clkHi 5 0 7).tx ∧
    (after (.step low) (phaseAt .clkHi 5 0 7)).tx = (phaseAt .clkHi 4 0 7).tx ∧
    (after (.step low) (phaseAt .clkHi 1 0 7)).tx = (phaseAt .clkLo 11 0 7).tx ∧
    (after (.step low) (phaseAt .clkLo 1 0 7)).tx = (phaseAt .clkHi 5 0 6).tx ∧
    (after (.step low) (phaseAt .clkLo 1 0 6)).tx = { (phaseAt .clkHi 5 0 5).tx with dataOut := true } := by decide

/-- V-X1: ticks 131, 231, 236, 336, 4336. -/
theorem test_phase_tails :
    (after .phaseClkLo (phaseAt .clkLo 1 0 0)).tx = (phaseAt .stbSetup 100 0 0).tx ∧
    (after .phaseStbSetup (phaseAt .stbSetup 1 0 0)).tx = (phaseAt .stbLow 5 0 0).tx ∧
    (after .phaseStbLow (phaseAt .stbLow 1 0 0)).tx = (phaseAt .stbHold 100 0 0).tx ∧
    (after .phaseStbHold (phaseAt .stbHold 1 0 0)).tx = (phaseAt .interbyte 4000 0 0).tx ∧
    (after .phaseInterbyte (phaseAt .interbyte 1 0 0)).tx =
      { (phaseAt .clkHi 5 1 7).tx with dataOut := true } := by decide

/-- R167: the end of a plain byte, the end of a frame, and IDLE. -/
theorem test_phase_ends :
    (after .phaseByteGap (phaseAt .byteGap 1 3 0)).tx = (phaseAt .interbyte 4000 3 0).tx ∧
    (after .phaseStbHold (phaseAt .stbHold 1 7 0)).said = [.txDone] ∧
    (after .phaseClkHi (phaseAt .clkHi 2 3 4)).tx.dly = 1 ∧ (after .txStep (phaseAt .clkHi 1 3 4)).tx.dly = 11 ∧
    (after .phaseIdle State.reset).tx = Tx.reset := by decide

/-- V-X2 (a), (b). -/
theorem test_refused_requests :
    (after (.tx 3) State.reset).said = [] ∧ (after (.tx 3) State.reset).tx = Tx.reset ∧
    (after (.txStart 2) (phaseAt .byteGap 9 3 0)).tx = (phaseAt .byteGap 9 3 0).tx ∧
    (after (.tx 2) (phaseAt .byteGap 9 3 0)).tx = (phaseAt .byteGap 8 3 0).tx ∧
    (after (.txStartRefused 3) State.reset).tx = Tx.reset := by decide

/-- R161: (b,1,1) x 5 ; (b,0,1) x 11, then IDLE; the timer runs beside. -/
theorem test_txbit :
    (callTicks 1 7 0 4 State.reset).tx.lines = ⟨true, true, true⟩ ∧
    (callTicks 1 7 0 5 State.reset).tx.lines = ⟨true, false, true⟩ ∧
    (callTicks 1 7 0 15 State.reset).tx.busy = true ∧
    (after (.txBit true) State.reset).now = 17 ∧ (after (.txBit true) State.reset).tx.busy = false ∧
    (after (.txBit true) State.reset).tx.lines = ⟨true, false, true⟩ ∧
    (after (.txBit true) State.reset).rx.cnt = 17 := by decide +kernel

/-- R162, R163 with every OPEN parameter at 1: `L_F` = 234, `L_P` = 129, one tick more to IDLE, DATA left at
bit 0. -/
theorem test_txbyte :
    (after (.txByteFramed 0x7B) { State.reset with cfg := ⟨1, 1, 1, 1, 1, 0⟩ }).now = 235 ∧
    (after (.txByteFramed 0x7B) { State.reset with cfg := ⟨1, 1, 1, 1, 1, 0⟩ }).tx.dataOut = true ∧
    (after (.txBytePlain 0xFE) { State.reset with cfg := ⟨1, 1, 1, 1, 1, 0⟩ }).now = 130 ∧
    (after (.txBytePlain 0xFE) { State.reset with cfg := ⟨1, 1, 1, 1, 1, 0⟩ }).tx.lines = ⟨false, false, true⟩ := by
  decide +kernel

/-- V-X3, rows 1, 2 and 4. -/
theorem test_frame_lengths :
    tFrame cfgRef = 30664 ∧ byte7Offset cfgRef = 30331 ∧ tFrame ⟨1, 1, 1, 1, 1, 0⟩ = 1249 ∧
    tFrame ⟨65535, 65535, 65535, 1, 1, 0⟩ = 984259 := by decide +kernel

/-- P2: the first segments and the last of the PLAY frame. -/
theorem test_wave_of_play :
    (waveFrame cfgRef 0x33FFCF81CF7F7F3B).take 3 =
      [⟨some false, true, true, 5⟩, ⟨some false, false, true, 11⟩, ⟨some false, true, true, 5⟩] ∧
    (waveFrame cfgRef 0x33FFCF81CF7F7F3B).getLast? = some ⟨none, false, true, 100⟩ ∧
    waveTicks (waveFrame cfgRef 0x33FFCF81CF7F7F3B) = 30664 := by decide +kernel

/-- R86: levels, and a host list beside them. -/
theorem test_levels :
    (after (.pulse 2 3) State.reset).now = 5 ∧ (after (.pulse 2 3) State.reset).rx.hiDur = 2 ∧
    (after (.lo 2) State.reset).rx.cnt = 2 ∧ (after (.idle 2) State.reset).rx.cnt = 2 ∧
    (after (.wait 2) (after (.hi 1) State.reset)).rx.remotePrev = true ∧
    (after (.lo 2) { State.reset with host := .script [.wait 1, .tx 1] }).labels = [⟨2, .txStart 1⟩] := by
  decide +kernel

/-- P3, tick 11: the settle delay of 10 ticks, then the request for INIT. -/
theorem test_dispatch_first_request :
    (after (.wait 11) (after .dispatch State.reset)).labels = [⟨11, .txStart 0⟩] := by decide +kernel

/-- A step takes the operation at the head; with nothing left one tick passes. -/
theorem test_step_at_rest :
    (match step State.reset with | .next t => t.rx.cnt | _ => 0) = 1 ∧
    (match step (State.reset.withFetchWord 8 3) with | .next t => t.rx.cnt | _ => 9) = 0 := by decide

/-! ### The statements' hypotheses are met -/

theorem meets_decodeOfEncode :
    (Instr.rframe 5401 2701 shortest 0xFFFF).wellFormed = true ∧ (Instr.hi 4294967295).wellFormed = true ∧
    (Instr.cmdReserved 0).wellFormed = true ∧ (Instr.wordInvalid 0).wellFormed = true ∧
    (Instr.txStart 2).wellFormed = true := by decide

theorem meets_stepRuns :
    State.reset.stim = [] ∧ reads (encode .rise ++ [7]) = some (.rise, [7]) ∧
    rejects [0xFF] = some (.truncated 0xFF) := by decide

theorem meets_resetWrites : ({ high with rst := true } : Inputs).rst = true := by decide

theorem meets_firstTick :
    State.reset.rx = Rx.reset ∧ State.reset.tx = Tx.reset ∧ low.rst = false ∧ high.rst = false ∧
    high.remoteIn = true ∧ low.remoteIn = false ∧
    ({ low with txStart := true, txSel := 2 } : Inputs).txStart = true ∧ (2 : Sel) ≠ 3 := by decide

/-- A bit taken alone with 30 held, the most the premise allows. -/
theorem meets_stepKeeps :
    ({ decoderAt true 30 5 650 3 with stim := encode .bit1 } : State).Inv ∧
    (decoderAt true 30 5 650 3).rx.takesBit ∧ reads (encode .bit1) = some (.bit1, []) ∧
    (match step { decoderAt true 30 5 650 3 with stim := encode .bit1 } with
      | .next t => t.rx.nbits | _ => 0) = 31 := by decide

theorem meets_onPath_gap : (phaseAt .byteGap 1 6 0).Inv ∧ (phaseAt .byteGap 1 6 0).tx.OnPath := by decide
theorem meets_onPath_strobe : (phaseAt .stbHold 1 7 0).Inv ∧ (phaseAt .stbHold 1 7 0).tx.OnPath := by decide
theorem meets_onPath_interbyte :
    (phaseAt .interbyte 1 6 0).Inv ∧ (phaseAt .interbyte 1 6 0).tx.OnPath := by decide
theorem meets_onPath_idle : (phaseAt .idle 0 7 0).Inv ∧ (phaseAt .idle 0 7 0).tx.OnPath := by decide

theorem meets_compose :
    ({ high with rst := true } : Inputs).rst = true ∧
    low.rst = false ∧ low.stateClr = false ∧ ({ high with stateClr := true } : Inputs).rst = false ∧
    ({ high with stateClr := true } : Inputs).stateClr = true := by decide

theorem meets_halves :
    low.rst = high.rst ∧ (phaseAt .clkHi 3 2 1).rx = State.reset.rx ∧ (changerAt 2).tx = State.reset.tx := by decide

theorem meets_labels : ({ low with rst := true } : Inputs).rst = true ∧ low.rst = false := by decide

theorem meets_timeoutEdge :
    (decoderAt true 7 5 650 65023).rx.cnt = 255 ∧ (decoderAt true 7 5 650 65023).rx.ovf = 253 ∧
    high.rst = false ∧ high.stateClr = false ∧ high.remoteIn ≠ (decoderAt true 7 5 650 65023).rx.remotePrev ∧
    low.remoteIn ≠ ({ (decoderAt true 7 5 650 65023).rx with remotePrev := true } : Rx).remotePrev := by decide

theorem meets_within : (1 : Dur) ≠ 0 := by decide

theorem meets_advance :
    (decoderAt true 7 5 650 65022).rx.ovf.toNat ≤ 253 ∧ (decoderAt true 7 5 650 65022).rx.time < 65023 ∧
    (decoderAt true 7 5 650 65023).rx.ovf.toNat ≤ 253 ∧ (decoderAt true 7 5 650 65023).rx.time = 65023 := by decide

theorem meets_quiet :
    (decoderAt true 7 5 650 65023).quiet ∧ (decoderAt true 7 5 650 65023).rx.ovf.toNat ≤ 253 ∧
    (decoderAt true 7 5 650 65023).rx.time + 0 < 65024 ∧ 65024 ≤ (decoderAt true 7 5 650 65023).rx.time + 1 := by decide

theorem meets_mark : State.reset.host = .absent ∧ State.reset.rx.remotePrev = false ∧ 1 ≤ 65024 := by decide

/-- One state for each branch of RISE, at the ends of its window. -/
theorem meets_rise :
    (decoderAt false 0 0 5401 2701).rx.hiDur.toNat = 5401 ∧ (decoderAt false 0 0 5401 2701).rx.time = 2701 ∧
    (decoderAt false 0 0 12599 6299).rx.time = 6299 ∧
    (decoderAt false 0 0 650 650).rx.decoding = false ∧
    (decoderAt true 3 5 390 650).rx.hiDur.toNat = 390 ∧ (decoderAt true 3 5 390 650).rx.decoding = true ∧
    (decoderAt true 31 5 391 1051).rx.nbits = 31 ∧ (decoderAt true 31 5 391 1051).rx.time = 1051 ∧
    (decoderAt true 30 5 909 909).rx.nbits ≠ 31 ∧ (decoderAt true 30 5 909 909).rx.time = 909 ∧
    (decoderAt true 3 5 650 910).rx.time = 910 := by decide

theorem meets_commandWords : (Instr.cmdReserved 0xFF).wellFormed = true := by decide

/-- RemoteFrameIsTakenAsItsWord and WordNeedsItsClosingMark. -/
theorem meets_frame :
    (Instr.rframe 5401 6299 ((391, 2449) :: (909, 909) :: List.replicate 30 (650, 1051)) 1).wellFormed = true ∧
    State.reset.host = .absent ∧ State.reset.rx.remotePrev = false ∧ State.reset.rx.decoding = false := by decide

theorem meets_clear :
    ({ low with stateClr := true } : Inputs).rst = false ∧ ({ low with stateClr := true } : Inputs).stateClr = true := by
  decide

/-- The changer state moves by a command, by the clear and by reset. -/
theorem meets_changerMoves :
    (after (.step high) (decoderAt true 31 0x2996522D 650 1749)).rx.cstate = 1 ∧
    (after (.step { low with stateClr := true }) (changerAt 2)).rx.cstate ≠ (changerAt 2).rx.cstate ∧
    (after (.step { low with rst := true }) (changerAt 2)).rx.cstate ≠ (changerAt 2).rx.cstate := by decide

theorem meets_rom : 24 ≤ 24 ∧ (2 : Sel) ≠ 3 := by decide

theorem meets_enum :
    (phaseAt .clkHi 1 0 0).tx.phase ≠ .idle ∧ State.reset.tx.phase ≠ .clkHi ∧ State.reset.tx.phase ≠ .clkLo ∧
    State.reset.tx.phase ≠ .stbSetup ∧ State.reset.tx.phase ≠ .stbLow ∧ State.reset.tx.phase ≠ .stbHold ∧
    State.reset.tx.phase ≠ .byteGap ∧ State.reset.tx.phase ≠ .interbyte := by decide

theorem meets_txStart : State.reset.tx.phase = .idle ∧ (0 : Sel) ≠ 3 ∧ (2 : Sel) ≠ 3 := by decide

theorem meets_refused :
    (phaseAt .clkHi 1 0 0).tx.busy = true ∧ ({ low with txStart := true, txSel := 3 } : Inputs).txSel = 3 := by decide

theorem meets_countDown :
    ∀ p ∈ [TxPhase.clkHi, .clkLo, .stbSetup, .stbLow, .stbHold, .byteGap, .interbyte],
      1 < (phaseAt p 2 0 0).tx.dly ∧ (phaseAt p 2 0 0).tx.phase = p := by decide

theorem meets_handover :
    (∀ p ∈ [TxPhase.clkHi, .clkLo, .stbSetup, .stbLow, .stbHold, .byteGap, .interbyte],
      (phaseAt p 1 0 0).tx.dly = 1 ∧ (phaseAt p 1 0 0).tx.phase = p) ∧
    (phaseAt .clkLo 1 0 1).tx.bit ≠ 0 ∧ (phaseAt .clkLo 1 7 0).tx.byte = 7 ∧
    (phaseAt .clkLo 1 6 0).tx.byte ≠ 7 ∧ (phaseAt .stbHold 1 7 0).tx.byte = 7 := by decide

theorem meets_idle :
    State.reset.tx.phase = .idle ∧ State.reset.inp.txStart = false ∧
    ({ State.reset with inp := { low with txStart := true, txSel := 2 } } : State).inp.txStart = true ∧
    ({ State.reset with inp := { low with txStart := true, txSel := 2 } } : State).inp.txSel ≠ 3 ∧
    ({ State.reset with inp := { low with txStart := true, txSel := 3 } } : State).inp.txSel = 3 := by decide

theorem meets_phaseLasts :
    (phaseAt .clkHi 5 0 7).host = .absent ∧ (phaseAt .clkHi 5 0 7).tx.phase ≠ .idle ∧
    4 < (phaseAt .clkHi 5 0 7).tx.dly.toNat := by decide

theorem meets_inFlight : (phaseAt .clkHi 5 0 7).tx.busy = true ∧ low.rst = false ∧ high.rst = false := by decide

/-- FrameTakesTFrameTicks and SequencerShowsTheWaveform. -/
theorem meets_txFrame :
    State.reset.tx.phase = .idle ∧ State.reset.tx.Inv ∧ State.reset.cfg.wf ∧ State.reset.host = .absent ∧
    (⟨1, 1, 1, 1, 1, 0⟩ : Cfg).wf ∧ 0 < tFrame cfgRef ∧ (2 : Sel) ≠ 3 := by decide

theorem meets_receiver : (⟨65535, 65535, 65535, 1, 1, 0⟩ : Cfg).wf ∧ cfgRef.wf := by decide

theorem meets_stimulusItems : State.reset.host = .absent ∧ (decoderAt true 7 5 650 65023).host = .absent := by
  decide

theorem meets_calls :
    State.reset.tx.phase = .idle ∧ State.reset.tx.Inv ∧ (phaseAt .clkHi 5 0 7).tx.busy = true ∧
    (phaseAt .clkHi 5 0 7).tx.Inv ∧ cfgRef.wf := by decide

theorem meets_callTicks :
    State.reset.tx.phase = .idle ∧ (phaseAt .clkLo 1 7 0).tx.phase ≠ .idle ∧
    (phaseAt .clkLo 1 7 0).tx.dly = 1 := by decide

theorem meets_frameCall :
    State.reset.cfg.wf ∧ State.reset.tx.phase = .idle ∧ (2 : Sel) ≠ 3 ∧ State.reset.host = .absent := by decide

theorem meets_hostList :
    ({ State.reset with host := .script [.tx 2] } : State).host = .script (.tx 2 :: []) ∧
    ({ State.reset with host := .script [.clr] } : State).host = .script (.clr :: []) ∧
    ({ State.reset with host := .script [.reset] } : State).host = .script (.reset :: []) ∧
    ({ State.reset with host := .script [.wait 1] } : State).host = .script (.wait (0 + 1) :: []) ∧
    ({ State.reset with host := .script [.wait 0] } : State).host = .script (.wait 0 :: []) ∧
    ({ State.reset with host := .script [.txw 1] } : State).host = .script (.txw 1 :: []) ∧
    ({ phaseAt .clkHi 1 0 0 with host := .script [.waitIdle] } : State).host = .script (.waitIdle :: []) ∧
    (phaseAt .clkHi 1 0 0).tx.busy = true ∧ State.reset.tx.busy = false ∧
    State.reset.restInputs = { State.reset.restInputs with remoteIn := false } := by decide

/-- DispatchRequestsThePayloadOfTheState and StopSequenceReturnsToInit: a pause that ends in the next tick, an idle transmitter, STOP read, the line at rest. -/
theorem meets_dispatch :
    ({ changerAt 2 with host := .dispatch (.pause 0) } : State).host = .dispatch (.pause 0) ∧
    (changerAt 2).tx.phase = .idle ∧ (changerAt 2).rx.cstate ≠ 3 ∧ (changerAt 2).rx.cstate = 2 ∧
    (changerAt 2).cfg.wf ∧ (changerAt 2).inp.remoteIn = (changerAt 2).rx.remotePrev := by decide

/-- One state for each position of the host in IterationsOfTheHostGoOn. -/
theorem meets_iterations :
    ({ changerAt 1 with host := .dispatch (.pause 0) } : State).host = .dispatch (.pause 0) ∧
    (changerAt 1).rx.cstate ≠ 2 ∧ (changerAt 1).rx.cstate ≠ 3 ∧ (changerAt 1).tx.phase = .idle ∧
    (changerAt 1).cfg.wf ∧ (changerAt 1).inp.remoteIn = (changerAt 1).rx.remotePrev ∧
    ({ changerAt 2 with host := .dispatch (.sending 1 false) } : State).host = .dispatch (.sending 1 false) ∧
    (1 : Sel) ≠ 2 ∧ (changerAt 2).rx.cstate ≠ 3 ∧
    ({ changerAt 2 with host := .dispatch (.sending 2 false) } : State).host = .dispatch (.sending 2 false) ∧
    ({ changerAt 2 with host := .dispatch (.sending 2 true) } : State).host = .dispatch (.sending 2 true) := by
  decide

end Sys2Proof.Tests
end

section
/-! PROOFS. The invariants of 10_state.md R46 are kept by the operations of each half of the block, then by a
tick and by everything made of ticks. -/

namespace Sys2Proof.Machine

/-! ### The timer and decoder half: R46 (a) to (e) -/

/-- An operation of the timer and decoder half that keeps R46 (a) to (e). -/
def KeepsRx (f : RxOp) : Prop := ∀ r : Rx, r.Inv → (f r).1.Inv

/-- The changer state never holds the reserved code (R46 (e)). -/
theorem Rx.cstate_ne_of_inv {r : Rx} (h : r.Inv) : r.cstate ≠ 3 := by
  obtain ⟨-, -, -, -, hst⟩ := h
  exact hst

theorem keepsRx_seqRx {f g : RxOp} (hf : KeepsRx f) (hg : KeepsRx g) : KeepsRx (seqRx f g) :=
  fun r h => hg _ (hf r h)

theorem keepsRx_whenRx (c : Bool) {f : RxOp} (hf : KeepsRx f) : KeepsRx (whenRx c f) := by
  intro r h
  cases c
  · exact h
  · exact hf r h

/-- A cleared context needs nothing but a legal changer state. -/
theorem ctxReset_inv {r : Rx} (h : r.cstate ≠ 3) : (ctxReset r).Inv :=
  ⟨Nat.zero_le _, Nat.zero_le _, fun _ => ⟨rfl, rfl⟩, Nat.zero_lt_one, h⟩

theorem keepsRx_ctxReset : KeepsRx fun r => (ctxReset r, []) :=
  fun _ h => ctxReset_inv (Rx.cstate_ne_of_inv h)

theorem keepsRx_rejectWith (l : Label) : KeepsRx (rejectWith l) :=
  fun _ h => ctxReset_inv (Rx.cstate_ne_of_inv h)

theorem keepsRx_tmrClr : KeepsRx fun r => (tmrClr r, []) :=
  fun _ ⟨_, hrest⟩ => ⟨Nat.zero_le _, hrest⟩

/-- The tally may grow while it is not at its last value below the timeout. -/
theorem ovf_succ_le {o : BitVec 8} (h : o.toNat ≤ 253) (hne : o ≠ 253) : (o + 1).toNat ≤ 253 := by
  bv_omega

/-- OVF: the tally grows, or the timeout clears the context (R112, R113). -/
theorem ovfOp_cases (r : Rx) :
    (r.ovf ≠ 253 ∧ ovfOp r = ({ r with ovf := r.ovf + 1 }, [])) ∨
    (r.ovf = 253 ∧ ovfOp r = (ctxReset r, [.timeout])) := by
  have hiff : r.ovf + 1 = Config.timeoutTally ↔ r.ovf = 253 := by
    unfold Config.timeoutTally
    constructor <;> intro h <;> bv_omega
  by_cases ho : r.ovf = 253
  · exact .inr ⟨ho, by rw [ovfOp, if_pos (hiff.2 ho)]; rfl⟩
  · exact .inl ⟨ho, by rw [ovfOp, if_neg (mt hiff.1 ho)]⟩

theorem keepsRx_ovfOp : KeepsRx ovfOp := by
  intro r hr
  have ⟨hovf, hrest⟩ := hr
  rcases ovfOp_cases r with ⟨hne, h⟩ | ⟨-, h⟩ <;> rw [h]
  · exact ⟨ovf_succ_le hovf hne, hrest⟩
  · exact ctxReset_inv (Rx.cstate_ne_of_inv hr)

theorem keepsRx_advanceOp : KeepsRx advanceOp := by
  intro r hr
  have ⟨hovf, hrest⟩ := hr
  rcases advanceOp_cases r with ⟨-, h⟩ | ⟨-, hne, h⟩ | ⟨-, -, h⟩ <;> rw [h]
  · exact ⟨hovf, hrest⟩
  · exact ⟨ovf_succ_le hovf hne, hrest⟩
  · exact ctxReset_inv (Rx.cstate_ne_of_inv hr)

/-- COMMAND never writes the reserved code (R153). -/
theorem afterCommand_ne_three (c : Byte) {st : BitVec 2} (h : st ≠ 3) : afterCommand c st ≠ 3 := by
  unfold afterCommand
  split
  · decide
  · split
    · decide
    · exact h

theorem afterWord_ne_three (w : CmdWord) {st : BitVec 2} (h : st ≠ 3) : afterWord w st ≠ 3 := by
  unfold afterWord
  split
  · exact afterCommand_ne_three _ h
  · exact h

/-- A new changer state other than 3 keeps the invariants. -/
theorem setCstate_inv {r : Rx} (h : r.Inv) {st : BitVec 2} (hst : st ≠ 3) :
    ({ r with cstate := st } : Rx).Inv := by
  obtain ⟨hovf, hbits, hidle, hbuf, -⟩ := h
  exact ⟨hovf, hbits, hidle, hbuf, hst⟩

theorem command_inv (c : Byte) {r : Rx} (h : r.Inv) : (command c r).Inv := by
  rw [command_eq]
  exact setCstate_inv h (afterCommand_ne_three c (Rx.cstate_ne_of_inv h))

theorem keepsRx_command (c : Byte) : KeepsRx fun r => (command c r, []) := fun _ => command_inv c
theorem keepsRx_acceptWord (c : Byte) : KeepsRx (acceptWord c) := fun _ => command_inv c
theorem keepsRx_discardWord (w : CmdWord) : KeepsRx (discardWord w) := fun _ h => h
theorem keepsRx_stateClrOp : KeepsRx stateClrOp := fun _ h => setCstate_inv h (by decide)
theorem keepsRx_fallOp (d : Dur) : KeepsRx (fallOp d) := fun _ h => h
theorem keepsRx_samplePrev (level : Bool) : KeepsRx (samplePrev level) := fun _ h => h

/-- COMPLETE clears the context, so it needs nothing but a legal changer state: not the bit count. -/
theorem completeOp_inv {r : Rx} (h : r.cstate ≠ 3) : (completeOp r).1.Inv := by
  rw [completeOp_eq]
  exact ctxReset_inv (afterWord_ne_three _ h)

theorem keepsRx_completeOp : KeepsRx completeOp :=
  fun _ h => completeOp_inv (Rx.cstate_ne_of_inv h)

theorem keepsRx_startOp : KeepsRx startOp :=
  fun _ ⟨hovf, _, _, _, hst⟩ => ⟨hovf, Nat.zero_le _, fun _ => ⟨rfl, rfl⟩, Nat.zero_lt_one, hst⟩

/-- A bit shifted in at the bottom makes the buffer one bit longer (R27, R131). -/
theorem shiftIn_lt {w : CmdWord} {n : Nat} (b : Bool) (h : w.toNat < 2 ^ n) :
    ((w <<< 1) ||| (BitVec.ofBool b).setWidth 32).toNat < 2 ^ (n + 1) := by
  rw [BitVec.toNat_or]
  apply Nat.or_lt_two_pow
  · calc (w <<< 1).toNat ≤ w.toNat * 2 := by
          rw [BitVec.toNat_shiftLeft, Nat.shiftLeft_eq]; exact Nat.mod_le _ _
      _ < 2 ^ (n + 1) := by omega
  · calc ((BitVec.ofBool b).setWidth 32).toNat < 2 ^ 1 := by cases b <;> decide
      _ ≤ 2 ^ (n + 1) := Nat.pow_le_pow_right (by decide) (by omega)

/-- BIT1 and BIT0 keep the invariants where RISE takes a bit and the word is not full (R131, R132). -/
theorem bitOp_inv (b : Bool) {r : Rx} (h : r.Inv) (ht : r.takesBit) : (bitOp b r).1.Inv := by
  obtain ⟨hovf, -, -, hbuf, hst⟩ := h
  obtain ⟨hdec, hbits⟩ := ht
  have hn : (r.nbits + 1).toNat = r.nbits.toNat + 1 := by bv_omega
  refine ⟨hovf, ?_, ?_, ?_, hst⟩
  · show (r.nbits + 1).toNat ≤ 31
    omega
  · intro hd
    exact absurd (hdec.symm.trans hd) (by decide)
  · show _ < 2 ^ (r.nbits + 1).toNat
    rw [hn]
    exact shiftIn_lt b hbuf

/-- The end of RISE: a full word is completed, anything else stands (R127). -/
theorem completeIfFull_inv {r : Rx} (h : r.Inv ∨ r.nbits = 32 ∧ r.cstate ≠ 3) :
    (completeIfFull r).1.Inv := by
  unfold completeIfFull
  split
  · exact completeOp_inv (h.elim Rx.cstate_ne_of_inv And.right)
  next hn => exact h.elim id fun hf => absurd hf.1 hn

/-- A bit in DECODING makes either a state of the invariants or a full word, never more (R127, R137). -/
theorem bitOp_inv_or_full (b : Bool) {r : Rx} (h : r.Inv) (hdec : r.decoding = true) :
    (bitOp b r).1.Inv ∨ (bitOp b r).1.nbits = 32 ∧ (bitOp b r).1.cstate ≠ 3 := by
  have hst : r.cstate ≠ 3 := Rx.cstate_ne_of_inv h
  by_cases hfull : r.nbits = 31
  · exact .inr ⟨by simp [bitOp, hfull], hst⟩
  · have ⟨_, hle, _⟩ := h
    exact .inl (bitOp_inv b h ⟨hdec, by bv_omega⟩)

theorem riseBranch_inv_or_full (h l : Dur) {r : Rx} (hr : r.Inv) :
    (riseBranch h l r).1.Inv ∨ (riseBranch h l r).1.nbits = 32 ∧ (riseBranch h l r).1.cstate ≠ 3 := by
  rcases riseBranch_cases h l r with ⟨-, -, e⟩ | ⟨-, ⟨-, e⟩ | ⟨-, -, e⟩ |
    ⟨hdec, -, ⟨-, e⟩ | ⟨-, -, e⟩ | ⟨-, -, e⟩⟩⟩ <;> rw [e]
  · exact .inl (keepsRx_startOp r hr)
  · exact .inl (keepsRx_rejectWith _ r hr)
  · exact .inl (keepsRx_rejectWith _ r hr)
  · exact bitOp_inv_or_full true hr hdec
  · exact bitOp_inv_or_full false hr hdec
  · exact .inl (keepsRx_rejectWith _ r hr)

theorem keepsRx_riseOp (d : Dur) : KeepsRx (riseOp d) := fun r h =>
  completeIfFull_inv (riseBranch_inv_or_full r.hiDur d (r := { r with loDur := d }) h)

theorem keepsRx_edgeOp {f : Dur → RxOp} (hf : ∀ d, KeepsRx (f d)) : KeepsRx (edgeOp f) :=
  fun r h => keepsRx_tmrClr _ (hf (elapsedOf r) r h)

theorem keepsRx_edgeTick (level : Bool) : KeepsRx (edgeTick level) := by
  intro r h
  rcases edgeTick_cases level r with ⟨-, e⟩ | ⟨-, -, e⟩ | ⟨-, -, e⟩ <;> rw [e]
  · exact h
  · exact keepsRx_edgeOp keepsRx_riseOp r h
  · exact keepsRx_edgeOp keepsRx_fallOp r h

/-- The timer and decoder half of STEP keeps R46 (a) to (e), whatever the inputs. -/
theorem keepsRx_rxTick (inp : Inputs) : KeepsRx (rxTick inp) :=
  keepsRx_seqRx (keepsRx_whenRx _ keepsRx_stateClrOp) <| keepsRx_seqRx keepsRx_advanceOp <|
    keepsRx_seqRx (keepsRx_edgeTick _) (keepsRx_samplePrev _)

/-- R46 (a) bounds ELAPSED below the timeout (R110). -/
theorem Rx.time_le_of_inv {r : Rx} (h : r.Inv) : r.time ≤ 65023 := by
  obtain ⟨hovf, -⟩ := h
  have hcnt := r.cnt.isLt
  unfold Rx.time
  omega

/-! ### The transmitter half: R46 (f), (g) and the path of the sequencer -/

/-- CLOCK is high in CLK_HI alone. -/
theorem Tx.clock_low_of_inv {t : Tx} (h : t.Inv) (hp : t.phase ≠ .clkHi) : t.clockOut = false := by
  obtain ⟨-, -, -, hclock⟩ := h
  exact Bool.eq_false_iff.2 (mt hclock.1 hp)

/-- STROBE is low in STB_LOW alone. -/
theorem Tx.strobe_high_of_inv {t : Tx} (h : t.Inv) (hp : t.phase ≠ .stbLow) : t.strobeOut = true := by
  obtain ⟨-, -, hstrobe, -⟩ := h
  exact Bool.not_eq_false _ |>.mp (mt hstrobe.1 hp)

theorem enterCell_inv (i j : BitVec 3) {t : Tx} (h : t.strobeOut = true) : (enterCell i j t).Inv := by
  simp [Tx.Inv, enterCell, h, Config.tClkHigh]

/-- A timed phase with the lines at rest: CLOCK low, STROBE high. -/
theorem restPhase_inv {t : Tx} {p : TxPhase} {d : BitVec 16} (hp : p ≠ .idle ∧ p ≠ .clkHi ∧ p ≠ .stbLow)
    (hd : d ≠ 0) (hc : t.clockOut = false) (hs : t.strobeOut = true) :
    ({ t with phase := p, dly := d } : Tx).Inv := by
  obtain ⟨hidle, hhigh, hlow⟩ := hp
  exact ⟨iff_of_false hidle hd, fun _ => ⟨hc, hs⟩, by simp [hs, hlow], by simp [hc, hhigh]⟩

theorem toIdle_inv {t : Tx} (hc : t.clockOut = false) (hs : t.strobeOut = true) : (toIdle t).1.Inv := by
  simp [Tx.Inv, toIdle, hc, hs]

/-- Counting down stops short of 0, where only IDLE may stand. -/
theorem countDown_inv {t : Tx} (h : t.Inv) (hp : t.phase ≠ .idle) (hd : 1 < t.dly) :
    ({ t with dly := t.dly - 1 } : Tx).Inv := by
  obtain ⟨-, hrest⟩ := h
  have hne : t.dly - 1 ≠ 0 := by bv_omega
  exact ⟨iff_of_false hp hne, hrest⟩

/-- What TXSTEP and the ticks of a call do, by the branches of their shape: IDLE looks for work, a timed
phase counts, and in its last tick hands over (R167). -/
theorem stepArm_keeps {P : Tx → Prop} {idle : TxOp} {last : TxPhase → TxOp} {t : Tx}
    (hidle : t.phase = .idle → P (idle t).1)
    (hcount : t.phase ≠ .idle → 1 < t.dly → P { t with dly := t.dly - 1 })
    (hlast : t.phase ≠ .idle → P (last t.phase t).1) : P (stepArm idle last t.phase t).1 := by
  unfold stepArm
  split
  next hp => exact hidle hp
  next hp =>
    by_cases hd : 1 < t.dly
    · rw [countDown_count _ _ hd]; exact hcount hp hd
    · rw [countDown_last _ _ hd]; exact hlast hp

/-- Every hand-over keeps R46 (f) and (g) in a legal configuration, whose durations are not 0. -/
theorem handOver_inv {c : Cfg} (hc : c.wf) {t : Tx} (h : t.Inv) (hp : t.phase ≠ .idle) :
    (handOver c t.phase t).1.Inv := by
  obtain ⟨hhold, hgap, hinter, -, -⟩ := hc
  have hclock := Tx.clock_low_of_inv h
  have hstrobe := Tx.strobe_high_of_inv h
  cases hq : t.phase with simp only [hq, ne_eq, reduceCtorEq, not_true_eq_false, not_false_eq_true,
    forall_const] at hp hclock hstrobe
  | clkHi => exact restPhase_inv (t := { t with clockOut := false }) (by decide) (by decide) rfl hstrobe
  | clkLo =>
    simp only [handOver, endClkLo]
    split
    · exact enterCell_inv _ _ hstrobe
    · split
      · exact restPhase_inv (by decide) (by decide) hclock hstrobe
      · exact restPhase_inv (by decide) hgap hclock hstrobe
  | stbSetup => simp [Tx.Inv, handOver, endStbSetup, hclock, Config.tStrobeLow]
  | stbLow => exact restPhase_inv (t := { t with strobeOut := true }) (by decide) hhold hclock rfl
  | stbHold =>
    simp only [handOver, endStbHold]
    split
    · exact toIdle_inv hclock hstrobe
    · exact restPhase_inv (by decide) hinter hclock hstrobe
  | byteGap => exact restPhase_inv (by decide) hinter hclock hstrobe
  | interbyte => exact enterCell_inv _ _ hstrobe

theorem txRequest_inv (start : Bool) (sel : Sel) {t : Tx} (h : t.Inv) : (txRequest start sel t).1.Inv := by
  rw [txRequest_eq]
  split
  next ha =>
    obtain ⟨-, hp, -⟩ := ha
    exact enterCell_inv _ _ (Tx.strobe_high_of_inv h (by simp [hp]))
  · exact h

/-- TXSTEP keeps R46 (f) and (g), whatever the inputs. -/
theorem txStepOp_inv {c : Cfg} (hc : c.wf) (inp : Inputs) {t : Tx} (h : t.Inv) :
    (txStepOp c inp t).1.Inv :=
  stepArm_keeps (P := Tx.Inv) (fun _ => txRequest_inv _ _ h) (countDown_inv h) (handOver_inv hc h)

/-- The first bit cell of a byte or of a call is on the path. -/
theorem enterCell_onPath (i j : BitVec 3) (t : Tx) : (enterCell i j t).OnPath := by
  simp [Tx.OnPath, enterCell]

/-- Every hand-over stays on the path: a tail follows bit 0, the strobe bytes 0 and 7, the gap the others
(R167). -/
theorem handOver_onPath (c : Cfg) {t : Tx} (h : t.OnPath) (hp : t.phase ≠ .idle) :
    (handOver c t.phase t).1.OnPath := by
  obtain ⟨hgap, hstrobe, hinter, hbit⟩ := h
  cases hq : t.phase with simp only [hq, ne_eq, reduceCtorEq, not_true_eq_false, not_false_eq_true,
    forall_const, or_true, or_false] at hp hgap hstrobe hbit
  | clkHi => simp [Tx.OnPath, handOver, endClkHi]
  | clkLo =>
    simp only [handOver, endClkLo]
    split
    · exact enterCell_onPath _ _ _
    next hb =>
      have hb0 : t.bit = 0 := by bv_omega
      split
      next hbyte => simpa [Tx.OnPath, hb0] using hbyte
      next hbyte => simpa [Tx.OnPath, hb0] using hbyte
  | stbSetup => simpa [Tx.OnPath, handOver, endStbSetup, hbit] using hstrobe
  | stbLow => simpa [Tx.OnPath, handOver, endStbLow, hbit] using hstrobe
  | stbHold =>
    simp only [handOver, endStbHold]
    split
    · simp [Tx.OnPath, toIdle]
    next hbyte => simpa [Tx.OnPath, hbit] using hbyte
  | byteGap => simpa [Tx.OnPath, handOver, endByteGap, hbit] using hgap.2
  | interbyte => exact enterCell_onPath _ _ _

/-- TXSTEP keeps the sequencer on its path. -/
theorem txStepOp_onPath (c : Cfg) (inp : Inputs) {t : Tx} (h : t.OnPath) :
    (txStepOp c inp t).1.OnPath := by
  refine stepArm_keeps (P := Tx.OnPath) (fun _ => ?_) (fun _ _ => h) (handOver_onPath c h)
  rw [txRequest_eq]
  split
  · exact enterCell_onPath _ _ _
  · exact h

/-! ### The state: ticks and what is made of them -/

theorem Rx.reset_inv : Rx.reset.Inv := by decide
theorem Tx.reset_inv : Tx.reset.Inv := by decide
theorem Tx.reset_onPath : Tx.reset.OnPath := by decide
theorem State.reset_inv : State.reset.Inv := ⟨Rx.reset_inv, Tx.reset_inv, by decide⟩

theorem onRx_inv {f : RxOp} (hf : KeepsRx f) {s : State} (h : s.Inv) : (s.onRx f).Inv :=
  have ⟨hrx, hrest⟩ := h
  ⟨hf _ hrx, hrest⟩

theorem onTx_inv {g : TxOp} {s : State} (h : s.Inv) (hg : (g s.tx).1.Inv) : (s.onTx g).Inv :=
  have ⟨hrx, _, hcfg⟩ := h
  ⟨hrx, hg, hcfg⟩

theorem runTick_inv {g : TxOp} (inp : Inputs) {s : State} (h : s.Inv) (hg : (g s.tx).1.Inv) :
    (runTick g inp s).Inv :=
  have ⟨hrx, _, hcfg⟩ := h
  ⟨keepsRx_rxTick inp _ hrx, hg, hcfg⟩

/-- STEP keeps the invariants, whatever its inputs (R46, R200). -/
theorem tick_inv (inp : Inputs) {s : State} (h : s.Inv) : (tick inp s).Inv := by
  have ⟨_, htx, hcfg⟩ := h
  cases hr : inp.rst
  · rw [tick_of_no_rst s inp hr]
    exact runTick_inv inp h (txStepOp_inv hcfg inp htx)
  · rw [tick_of_rst s inp hr]
    exact ⟨Rx.reset_inv, Tx.reset_inv, hcfg⟩

/-- STEP keeps the sequencer on its path, reset included. -/
theorem tick_onPath (inp : Inputs) {s : State} (h : s.tx.OnPath) : (tick inp s).tx.OnPath := by
  cases hr : inp.rst
  · rw [tick_tx s inp hr]
    exact txStepOp_onPath s.cfg inp h
  · rw [tick_of_rst s inp hr]
    exact Tx.reset_onPath

theorem worldTick_inv (level : Bool) {s : State} (h : s.Inv) : (worldTick level s).Inv :=
  tick_inv _ (s := { s with host := _ }) h

theorem holdLevel_inv (level : Bool) (n : Nat) {s : State} (h : s.Inv) : (holdLevel level n s).Inv :=
  times_keeps (P := State.Inv) _ (fun _ => worldTick_inv level) n s h

theorem runPulse_inv (h l : Nat) {s : State} (hs : s.Inv) : (runPulse h l s).Inv :=
  holdLevel_inv _ _ (holdLevel_inv _ _ hs)

theorem runStart_inv {s : State} (h : s.Inv) : (runStart s).Inv := by
  unfold runStart
  exact runPulse_inv _ _ h

theorem runBit_inv (b : Bool) {s : State} (h : s.Inv) : (runBit b s).Inv := by
  unfold runBit
  exact runPulse_inv _ _ h

theorem runWord_inv (w : CmdWord) {s : State} (h : s.Inv) : (runWord w s).Inv :=
  List.foldlRecOn (bitsOfWord w) _ (motive := State.Inv) (runStart_inv h) fun _ ht _ _ => runBit_inv _ ht

theorem runFrame_inv (m sp : Dur) (data : List (Dur × Dur)) (closing : Dur) {s : State} (h : s.Inv) :
    (runFrame m sp data closing s).Inv :=
  holdLevel_inv _ _ <|
    List.foldlRecOn _ _ (motive := State.Inv) (runPulse_inv _ _ h) fun _ ht _ _ => runPulse_inv _ _ ht

theorem waitWhileBusy_inv (n : Nat) {s : State} (h : s.Inv) : (waitWhileBusy n s).Inv := by
  induction n generalizing s with
  | zero => exact h
  | succ n ih =>
    unfold waitWhileBusy
    split
    · exact ih (worldTick_inv _ h)
    · exact h

/-- A phase operation run alone is TXSTEP in its own phase and nothing in another. -/
theorem inPhase_inv (p : TxPhase) {s : State} (h : s.Inv) : (inPhase p s).Inv := by
  have ⟨_, htx, hcfg⟩ := h
  refine onTx_inv (s := s.fresh) h ?_
  split
  next hp => subst hp; exact txStepOp_inv hcfg s.inp htx
  · exact htx

end Sys2Proof.Machine
end

section
/-! PROOFS. The sequencer between requests, phase by phase and cell by cell (44_frame_transmitter.md R161,
R167), and where it stands in the last tick of a transmitter call. -/

namespace Sys2Proof.Machine

/-! ### The sequencer with no request -/

/-- The transmitter after a TXSTEP that no request meets. -/
def txQuiet (c : Cfg) (t : Tx) : Tx := (txStepOp c Inputs.none t).1

/-- Without a request TXSTEP reads no input. -/
theorem txStepOp_of_no_start (c : Cfg) {inp : Inputs} (t : Tx) (h : inp.txStart = false) :
    (txStepOp c inp t).1 = txQuiet c t := by
  unfold txQuiet
  by_cases hp : t.phase = .idle
  · rw [txStepOp_idle c inp t hp, txStepOp_idle c _ t hp, h, txRequest_eq, txRequest_eq]
    rfl
  · rw [txStepOp_timed c inp t hp, txStepOp_timed c _ t hp]

/-- The transmitter after `n` TXSTEPs that no request meets. -/
def txQuietRun (c : Cfg) : Nat → Tx → Tx
  | 0, t => t
  | n + 1, t => txQuiet c (txQuietRun c n t)

theorem txQuietRun_zero (c : Cfg) (t : Tx) : txQuietRun c 0 t = t := rfl
theorem txQuietRun_succ (c : Cfg) (n : Nat) (t : Tx) :
    txQuietRun c (n + 1) t = txQuiet c (txQuietRun c n t) := rfl

theorem txQuietRun_add (c : Cfg) (m n : Nat) (t : Tx) :
    txQuietRun c (m + n) t = txQuietRun c n (txQuietRun c m t) := by
  induction n with
  | zero => rfl
  | succ n ih => rw [← Nat.add_assoc, txQuietRun_succ, txQuietRun_succ, ih]

/-- After its first tick the transmitter of a call is the sequencer with no request, from the operand's
cell (R160, R167). -/
theorem callTicks_tx (p : Payload) (i j : BitVec 3) (n : Nat) {s : State} (h : s.tx.phase = .idle) :
    (callTicks p i j n s).tx = txQuietRun s.cfg n (enterCell i j { s.tx with pay := p }) := by
  induction n with
  | zero =>
    show (callBegin s.cfg p i j s.tx).1 = _
    rw [callBegin_idle _ _ _ _ _ h]
    rfl
  | succ n ih =>
    rw [callTicks_succ, plainTick_tx, txStepOp_of_no_start _ _ rfl, (callTicks_frame p i j n s).1, ih,
      txQuietRun_succ]

theorem txQuiet_count (c : Cfg) {t : Tx} (hp : t.phase ≠ .idle) (hd : 1 < t.dly) :
    txQuiet c t = { t with dly := t.dly - 1 } := by
  rw [txQuiet, txStepOp_timed _ _ _ hp, countDown_count _ _ hd]

theorem txQuiet_last (c : Cfg) {t : Tx} (hp : t.phase ≠ .idle) (hd : ¬1 < t.dly) :
    txQuiet c t = (handOver c t.phase t).1 := by
  rw [txQuiet, txStepOp_timed _ _ _ hp, countDown_last _ _ hd]

/-- A timed phase only counts until its last tick (R167). -/
theorem txQuietRun_counts (c : Cfg) {t : Tx} (hp : t.phase ≠ .idle) {n : Nat} (hn : n < t.dly.toNat) :
    txQuietRun c n t = { t with dly := t.dly - BitVec.ofNat 16 n } := by
  induction n with
  | zero => rw [txQuietRun_zero, BitVec.sub_zero]
  | succ n ih =>
    have hlt := t.dly.isLt
    have h1 : 1 < t.dly - BitVec.ofNat 16 n := by bv_omega
    have h2 : t.dly - BitVec.ofNat 16 n - 1 = t.dly - BitVec.ofNat 16 (n + 1) := by bv_omega
    rw [txQuietRun_succ, ih (by omega), ← h2]
    exact txQuiet_count c (t := { t with dly := t.dly - BitVec.ofNat 16 n }) hp h1

/-- A hand-over writes the counter, so it does not read it. -/
theorem handOver_dly (c : Cfg) {p : TxPhase} (t : Tx) (d : BitVec 16) (hp : p ≠ .idle) :
    handOver c p { t with dly := d } = handOver c p t := by
  cases p with
  | idle => exact absurd rfl hp
  | clkHi | clkLo | stbSetup | stbLow | stbHold | byteGap | interbyte => rfl

/-- A timed phase lasts as many ticks as its counter says, and then hands over (R167). -/
theorem txQuietRun_phase (c : Cfg) {t : Tx} (hp : t.phase ≠ .idle) {n : Nat}
    (hn : n + 1 = t.dly.toNat) : txQuietRun c (n + 1) t = (handOver c t.phase t).1 := by
  have hlast : ¬1 < t.dly - BitVec.ofNat 16 n := by bv_omega
  rw [txQuietRun_succ, txQuietRun_counts c hp (by omega),
    ← handOver_dly c t (t.dly - BitVec.ofNat 16 n) hp]
  exact txQuiet_last c (t := { t with dly := t.dly - BitVec.ofNat 16 n }) hp hlast

/-- A bit cell is 5 ticks of CLK_HI and 11 of CLK_LO (R161). -/
theorem txQuietRun_cell (c : Cfg) (i j : BitVec 3) (t : Tx) :
    txQuietRun c 16 (enterCell i j t) = (endClkLo c (endClkHi (enterCell i j t)).1).1 := by
  have hhigh : txQuietRun c 5 (enterCell i j t) = (endClkHi (enterCell i j t)).1 :=
    txQuietRun_phase c (t := enterCell i j t) (n := 4) (by simp [enterCell]) rfl
  have hlow : txQuietRun c 11 (endClkHi (enterCell i j t)).1 = (endClkLo c (endClkHi (enterCell i j t)).1).1 :=
    txQuietRun_phase c (t := (endClkHi (enterCell i j t)).1) (n := 10) (by simp [endClkHi]) rfl
  rw [show 16 = 5 + 11 from rfl, txQuietRun_add, hhigh, hlow]

/-- Above bit 0 the cell of the next bit follows (R167). -/
theorem endClkLo_nextCell (c : Cfg) (i : BitVec 3) {j : BitVec 3} (t : Tx) (hj : 0 < j) :
    (endClkLo c (endClkHi (enterCell i j t)).1).1 = enterCell i (j - 1) t := by
  have hbit : 0 < (endClkHi (enterCell i j t)).1.bit := hj
  rw [endClkLo, if_pos hbit]
  rfl

/-- The cells of a byte follow one another, highest bit first (R57, R162). -/
theorem txQuietRun_cells (c : Cfg) (i j : BitVec 3) (t : Tx) {k : Nat} (hk : k ≤ j.toNat) :
    txQuietRun c (16 * k) (enterCell i j t) = enterCell i (j - BitVec.ofNat 3 k) t := by
  induction k with
  | zero => rw [Nat.mul_zero, txQuietRun_zero, BitVec.sub_zero]
  | succ k ih =>
    have hj := j.isLt
    have hpos : 0 < j - BitVec.ofNat 3 k := by bv_omega
    have hnext : j - BitVec.ofNat 3 k - 1 = j - BitVec.ofNat 3 (k + 1) := by bv_omega
    rw [Nat.mul_succ, txQuietRun_add, ih (by omega), txQuietRun_cell,
      endClkLo_nextCell c i t hpos, hnext]

/-- The eight cells of a byte take 128 ticks, then its tail begins (R162, R163). -/
theorem txQuietRun_byte (c : Cfg) (i : BitVec 3) (t : Tx) :
    txQuietRun c 128 (enterCell i 7 t) = (endClkLo c (endClkHi (enterCell i 0 t)).1).1 := by
  rw [show 128 = 16 * 7 + 16 from rfl, txQuietRun_add,
    txQuietRun_cells c i 7 t (k := 7) (by decide)]
  exact txQuietRun_cell c i 0 t

/-! ### Transmitter calls -/

@[simp] theorem waveTicks_waveBit (b : Bool) : waveTicks (waveBit b) = 16 := rfl

@[simp] theorem waveTicks_append (v w : List Seg) : waveTicks (v ++ w) = waveTicks v + waveTicks w := by
  simp [waveTicks]

theorem waveTicks_waveCells (v : Byte) : waveTicks (waveCells v) = 128 := by
  simp [waveCells]

theorem waveTicks_wavePlain (c : Cfg) (v : Byte) : waveTicks (wavePlain c v) = 128 + c.tByteGap.toNat := by
  rw [wavePlain, waveTicks_append, waveTicks_waveCells]
  rfl

/-- In the last tick of the waveform of TXBIT the sequencer is in CLK_LO. -/
theorem callTicks_bit_phase (p : Payload) {s : State} (h : s.tx.phase = .idle) :
    (callTicks p 7 0 15 s).tx.phase = .clkLo := by
  rw [callTicks_tx p 7 0 15 h, show 15 = 5 + 10 from rfl, txQuietRun_add,
    txQuietRun_phase s.cfg (n := 4) (by simp [enterCell]) rfl,
    txQuietRun_counts s.cfg (by simp [enterCell, handOver, endClkHi])
      (by simp [enterCell, handOver, endClkHi, Config.tClkLow])]
  rfl

/-- In the last tick of the waveform of a plain TXBYTE the sequencer is in BYTE_GAP. -/
theorem callTicks_plain_phase (p : Payload) {s : State} (hgap : s.cfg.tByteGap ≠ 0)
    (h : s.tx.phase = .idle) : (callTicks p 6 7 (127 + s.cfg.tByteGap.toNat) s).tx.phase = .byteGap := by
  have hpos : 0 < s.cfg.tByteGap.toNat := by bv_omega
  have hsplit : 127 + s.cfg.tByteGap.toNat = 128 + (s.cfg.tByteGap.toNat - 1) := by omega
  rw [callTicks_tx p 6 7 _ h, hsplit, txQuietRun_add, txQuietRun_byte,
    txQuietRun_counts s.cfg (by simp [enterCell, endClkHi, endClkLo])
      (show _ < s.cfg.tByteGap.toNat by omega)]
  rfl

/-- The registers after a tick do not depend on the observer (R200). -/
theorem tick_fresh_registers (s : State) (inp : Inputs) :
    (tick inp s.fresh).rx = (tick inp s).rx ∧ (tick inp s.fresh).tx = (tick inp s).tx ∧
    (tick inp s.fresh).now = (tick inp s).now := by
  unfold tick
  split <;> exact ⟨rfl, rfl, rfl⟩

/-- In its first tick a call latches its operand and begins the cell (R161, R165). -/
theorem callTicks_zero_tx (p : Payload) (i j : BitVec 3) {s : State} (h : s.tx.phase = .idle) :
    (callTicks p i j 0 s).tx = { s.tx with
      pay := p, byte := i, bit := j, dataOut := p.getLsbD (8 * (7 - i.toNat) + j.toNat)
      clockOut := true, phase := .clkHi, dly := 5 } := by
  rw [callTicks_tx p i j 0 h, txQuietRun_zero]
  simp [enterCell, Config.tClkHigh]

/-- No tick of a call asserts an input (R86). -/
theorem callTicks_restInputs (p : Payload) (i j : BitVec 3) (n : Nat) (s : State) :
    (callTicks p i j n s).restInputs = s.restInputs := by
  induction n with
  | zero => rfl
  | succ n ih => rw [callTicks_succ, plainTick_rest, ih]

/-- The tick that ends a call early moves the phase and its counter alone (R168). -/
theorem endTick_tx {s : State} (hp : s.tx.phase ≠ .idle) (hd : s.tx.dly = 1) :
    (endTick s).tx = { s.tx with phase := .idle, dly := 0 } := by
  show (callEnd s.tx).1 = _
  rw [callEnd_last s.tx hp (by simp [hd])]
  rfl

theorem callTicks_inv (p : Payload) (i j : BitVec 3) (n : Nat) {s : State} (h : s.Inv)
    (hp : s.tx.phase = .idle) : (callTicks p i j n s).Inv := by
  have ⟨_, htx, _⟩ := h
  refine times_keeps (P := State.Inv) plainTick (fun _ => tick_inv _) n _ (runTick_inv _ h ?_)
  rw [callBegin_idle _ _ _ _ _ hp]
  exact enterCell_inv i j (Tx.strobe_high_of_inv htx (by simp [hp]))

/-- The tick that ends a call early keeps the invariants where the call can be: with its lines at rest. -/
theorem endTick_inv {s : State} (h : s.Inv) (hp : s.tx.phase = .clkLo ∨ s.tx.phase = .byteGap) :
    (endTick s).Inv := by
  have ⟨_, htx, _⟩ := h
  have hclock : s.tx.clockOut = false := Tx.clock_low_of_inv htx (by rcases hp with e | e <;> simp [e])
  have hstrobe : s.tx.strobeOut = true := Tx.strobe_high_of_inv htx (by rcases hp with e | e <;> simp [e])
  exact runTick_inv _ h <| stepArm_keeps (P := Tx.Inv) (fun _ => htx) (countDown_inv htx) fun _ =>
    toIdle_inv hclock hstrobe

/-- A call keeps the invariants if the tick that leaves it does. -/
theorem txCall_inv {w : List Seg} {p : Payload} {i j : BitVec 3} {leave : State → State} {s : State}
    (h : s.Inv) (hleave : s.tx.phase = .idle → (leave (callTicks p i j (waveTicks w - 1) s)).Inv) :
    (txCall w p i j leave s).Inv := by
  unfold txCall
  split
  · exact h
  next hb => exact hleave (Decidable.not_not.1 (mt (Tx.busy_iff s.tx).2 hb))

/-- A call that ends as TXSTEP ends byte 7: TXFRAME and a framed TXBYTE. -/
theorem txCall_plainTick_inv (w : List Seg) (p : Payload) (i j : BitVec 3) {s : State} (h : s.Inv) :
    (txCall w p i j plainTick s).Inv :=
  txCall_inv h fun hp => tick_inv _ (callTicks_inv p i j _ h hp)

theorem txCall_bit_inv (b : Bool) (p : Payload) {s : State} (h : s.Inv) :
    (txCall (waveBit b) p 7 0 endTick s).Inv := by
  refine txCall_inv h fun hp => ?_
  rw [waveTicks_waveBit]
  exact endTick_inv (callTicks_inv p 7 0 15 h hp) (.inl (callTicks_bit_phase p hp))

theorem txCall_plain_inv (v : Byte) (p : Payload) {s : State} (h : s.Inv) :
    (txCall (wavePlain s.cfg v) p 6 7 endTick s).Inv := by
  refine txCall_inv h fun hp => ?_
  have ⟨_, _, _, hgap, _⟩ := h
  rw [waveTicks_wavePlain, show 128 + s.cfg.tByteGap.toNat - 1 = 127 + s.cfg.tByteGap.toNat by omega]
  exact endTick_inv (callTicks_inv p 6 7 _ h hp) (.inr (callTicks_plain_phase p hgap hp))

end Sys2Proof.Machine
end

section
/-! PROOFS. The statements about the state: every operation keeps the invariants, and the ticks of a call are
ticks of STEP. -/

namespace Sys2Proof.Machine

/-! ### Every operation -/

/-- The outcome of an operation, where it is a state, meets the invariants. -/
def InvAfter : Host.Outcome State Fault Refusal → Prop
  | .next t => t.Inv
  | .fault _ => True
  | .refused _ => True

/-- Every operation keeps the invariants; a bit taken alone needs the state in which RISE takes one. -/
theorem exec_inv (i : Instr) {s : State} (h : s.Inv) (hbit : i = .bit1 ∨ i = .bit0 → s.rx.takesBit) :
    InvAfter (exec i s) := by
  have hf : s.fresh.Inv := h
  have ⟨hrx, htx, hcfg⟩ := h
  cases i with
  | noedgeLo | noedgeHi | txStartRefused => exact h
  | rise => exact onRx_inv (keepsRx_edgeOp keepsRx_riseOp) hf
  | fall => exact onRx_inv (keepsRx_edgeOp keepsRx_fallOp) hf
  | start => exact onRx_inv keepsRx_startOp hf
  | rejectIdle | rejectMark | rejectSpace => exact onRx_inv (keepsRx_rejectWith _) hf
  | bit1 => exact ⟨bitOp_inv true hrx (hbit (.inl rfl)), htx, hcfg⟩
  | bit0 => exact ⟨bitOp_inv false hrx (hbit (.inr rfl)), htx, hcfg⟩
  | cmdSelectA | cmdSelectB | cmdDeselect | cmdReserved => exact onRx_inv (keepsRx_acceptWord _) hf
  | wordInvalid w => exact onRx_inv (keepsRx_discardWord w) hf
  | valid | elapsed | within => exact h
  | payloadInit | payloadPlay | payloadStop => exact h
  | cstateInit | cstatePlay | cstateStop | cstateReserved => exact h
  | phaseIdle | phaseClkHi | phaseClkLo | phaseStbSetup | phaseStbLow | phaseStbHold | phaseByteGap
  | phaseInterbyte => exact inPhase_inv _ h
  | txBit b => exact txCall_bit_inv b _ hf
  | txByteFramed | txFrame => exact txCall_plainTick_inv _ _ _ _ hf
  | txBytePlain v => exact txCall_plain_inv v _ hf
  | rframe m sp data closing => exact runFrame_inv m sp data closing hf
  | step | reset | tx | clr => exact tick_inv _ hf
  | stateClr => exact onRx_inv keepsRx_stateClrOp hf
  | txStart sel => exact onTx_inv hf (txRequest_inv true sel htx)
  | txStep => exact onTx_inv hf (txStepOp_inv hcfg s.inp htx)
  | advance => exact onRx_inv keepsRx_advanceOp hf
  | ovf => exact onRx_inv keepsRx_ovfOp hf
  | timeout => exact onRx_inv (keepsRx_rejectWith .timeout) hf
  | tmrClr => exact onRx_inv keepsRx_tmrClr hf
  | ctxReset => exact onRx_inv keepsRx_ctxReset hf
  | complete => exact onRx_inv keepsRx_completeOp hf
  | command c => exact onRx_inv (keepsRx_command c) hf
  | hi | lo | wait | close | idle => exact holdLevel_inv _ _ hf
  | pulse m sp => exact runPulse_inv m sp hf
  | startItem => exact runStart_inv hf
  | b1 | b0 => exact runBit_inv _ hf
  | word | cmd => exact runWord_inv _ hf
  | txw sel => exact waitWhileBusy_inv _ (tick_inv _ hf)
  | dispatch => exact h

/-- A step runs the operation at the head of the stimulus, or one tick at rest. -/
theorem step_inv {s : State} (h : s.Inv)
    (hbit : ∀ i rest, decode s.stim = .ok (i, rest) → i = .bit1 ∨ i = .bit0 → s.rx.takesBit) :
    InvAfter (step s) := by
  unfold step
  split
  · exact worldTick_inv _ (s := s.fresh) h
  · cases hd : decode s.stim with
    | error why => simp [fetch, hd, Except.map, InvAfter]
    | ok p =>
      simp only [fetch, hd, Except.map]
      exact exec_inv p.1 (s := { s with stim := p.2 }) h (hbit p.1 p.2 hd)

/-! ### The obligations -/

/-- Settles O7: the reset table, half by half. -/
theorem resetMeetsTheInvariants : Obligations.ResetMeetsTheInvariants :=
  ⟨State.reset_inv, Tx.reset_onPath⟩

/-- Settles O8, by cases on the operation at the head of the stimulus. -/
theorem stepKeepsTheInvariants : Obligations.StepKeepsTheInvariants := by
  intro s t h hbit hstep
  have hinv := step_inv h hbit
  rwa [hstep] at hinv

/-- Settles O9: STEP on each half; ELAPSED is bounded by the tally's invariant. -/
theorem tickKeepsTheInvariants : Obligations.TickKeepsTheInvariants := by
  refine ⟨State.reset_inv, fun s inp h => ⟨tick inp s.fresh, rfl, ?_⟩⟩
  have hinv : (tick inp s.fresh).Inv := tick_inv inp (s := s.fresh) h
  have ⟨hrx, _⟩ := hinv
  exact ⟨hinv, Rx.time_le_of_inv hrx, tick_onPath inp (s := s.fresh)⟩

/-- Settles O56: the first tick of a call, each further one, and the tick that ends a call early. -/
theorem callTicksAreTicksOfStep : Obligations.CallTicksAreTicksOfStep := by
  intro s p i j k hidle
  refine ⟨⟨_, rfl, ?_, ?_, callTicks_zero_tx p i j hidle⟩, ⟨_, rfl, ?_⟩,
    fun u hp hd => ⟨_, rfl, ?_, ?_, endTick_tx hp hd⟩⟩
  · exact (tick_rx s.fresh s.restInputs rfl).symm
  · exact (tick_now s.fresh s.restInputs rfl).symm
  · rw [callTicks_succ, plainTick, callTicks_restInputs]
    obtain ⟨hrx, htx, hnow⟩ := tick_fresh_registers (callTicks p i j k s) s.restInputs
    exact ⟨hrx.symm, htx.symm, hnow.symm⟩
  · exact (tick_rx u.fresh u.restInputs rfl).symm
  · exact (tick_now u.fresh u.restInputs rfl).symm

end Sys2Proof.Machine
end

section
/-! PROOFS. The payload: where the ROM holds it, and that the frame in flight keeps the one it latched
(20_memory.md R51 to R53 and R64). -/

namespace Sys2Proof.Machine

/-! ### The payload ROM -/

/-- The ROM has no address from 24 on (R52). -/
theorem memRead_eq_none {a : Nat} (h : 24 ≤ a) : memRead a = none := by
  have hrom : ∀ c ∈ Config.rom, c.1 < 24 := by decide
  have hfind : Config.rom.find? (fun c => c.1 == a) = none := by
    refine List.find?_eq_none.2 fun c hc => ?_
    have hlt := hrom c hc
    simp only [beq_iff_eq]
    omega
  rw [memRead, hfind, Option.map_none]

/-- The byte `i` of the payload of `sel` stands at `sel * 8 + i` (R52, R56). -/
theorem memRead_payload : ∀ sel : Sel, sel ≠ 3 → ∀ i : BitVec 3,
    memRead (sel.toNat * 8 + i.toNat) = some (payByte (payloadOf sel) i) := by
  decide

/-- A payload operation answers the payload of its select and writes no register (R53). -/
theorem returns_payloadResult (s : State) {sel : Sel} (h : sel ≠ 3) :
    returns (payloadResult sel) s = { s.fresh with result := .payload (payloadOf sel) } := by
  rw [payloadResult, readPayload_eq, if_neg h, returns]

/-! ### The payload in flight -/

/-- No phase writes the payload in its last tick (R167). -/
theorem handOver_pay (c : Cfg) (p : TxPhase) (t : Tx) : (handOver c p t).1.pay = t.pay := by
  cases p with
  | idle | clkHi | stbSetup | stbLow | byteGap | interbyte => rfl
  | clkLo =>
    simp only [handOver, endClkLo]
    split
    · rfl
    · split <;> rfl
  | stbHold =>
    simp only [handOver, endStbHold]
    split <;> rfl

/-- TXSTEP latches a payload in IDLE alone (R64, R165, R167). -/
theorem txStepOp_pay_of_busy (c : Cfg) (inp : Inputs) {t : Tx} (h : t.busy = true) :
    (txStepOp c inp t).1.pay = t.pay :=
  stepArm_keeps (P := fun u => u.pay = t.pay) (fun hidle => absurd hidle ((Tx.busy_iff t).1 h))
    (fun _ _ => rfl) (fun _ => handOver_pay c t.phase t)

/-! ### The obligations -/

/-- Settles O45: while busy TXSTEP reads no input and writes no payload. -/
theorem frameInFlightKeepsItsPayload : Obligations.FrameInFlightKeepsItsPayload := by
  intro s inp inp' hbusy hrst hrst'
  refine ⟨tick inp s.fresh, tick inp' s.fresh, rfl, rfl, ?_, ?_⟩
  · rw [tick_tx s.fresh inp hrst, tick_tx s.fresh inp' hrst',
      txStepOp_busy s.fresh.cfg inp inp' s.fresh.tx hbusy]
  · rw [tick_tx s.fresh inp hrst]
    exact txStepOp_pay_of_busy s.cfg inp hbusy

/-- Settles O36: the ROM's addresses and bytes, and the value each payload operation answers. -/
theorem romHoldsTheThreePayloads : Obligations.RomHoldsTheThreePayloads := by
  refine ⟨rom_wf, fun _ => memRead_eq_none, memRead_payload, fun s => ⟨?_, ?_, ?_⟩⟩
  · exact congrArg Host.Outcome.next (returns_payloadResult s (sel := 0) (by decide))
  · exact congrArg Host.Outcome.next (returns_payloadResult s (sel := 1) (by decide))
  · exact congrArg Host.Outcome.next (returns_payloadResult s (sel := 2) (by decide))

end Sys2Proof.Machine
end

section
/-! PROOFS. The decoder reads back what the encoder writes, format by format (30_encoding.md R70, R88). -/

namespace Sys2Proof

open Machine

/-! ### Operand fields -/

/-- A number that fits its field is read back. -/
theorem withField_leBytes (tag : Byte) {n v : Nat} (h : v < 256 ^ n) (rest : List Byte)
    (f : Nat → Instr) : withField tag n (leBytes n v ++ rest) f = .ok (f v, rest) := by
  rw [withField, takeLE_leBytes, Nat.mod_eq_of_lt h]

/-- A word of as many bytes as its field is read back. -/
theorem withField_bitVec (tag : Byte) (n : Nat) (v : BitVec (8 * n)) (rest : List Byte)
    (g : BitVec (8 * n) → Instr) :
    withField tag n (leBytes n v.toNat ++ rest) (fun m => g (BitVec.ofNat (8 * n) m)) =
      .ok (g v, rest) := by
  have hlt : v.toNat < 256 ^ n := by rw [show 256 = 2 ^ 8 by rfl, ← Nat.pow_mul]; exact v.isLt
  rw [withField_leBytes tag hlt, BitVec.ofNat_toNat, BitVec.setWidth_eq]

/-- Two numbers that fit their fields are read back. -/
theorem withTwoFields_leBytes (tag : Byte) {n u v : Nat} (hu : u < 256 ^ n) (hv : v < 256 ^ n)
    (rest : List Byte) (f : Nat → Nat → Instr) :
    withTwoFields tag n (leBytes n u ++ leBytes n v ++ rest) f = .ok (f u v, rest) := by
  rw [withTwoFields, List.append_assoc, takeLE_leBytes, Nat.mod_eq_of_lt hu]
  exact withField_leBytes tag hv rest (f u)

/-- A select is read back from its byte. -/
theorem withSel_setWidth (tag : Byte) (sel : Sel) (rest : List Byte) (f : Sel → Instr) :
    withSel tag (sel.setWidth 8 :: rest) f = .ok (f sel, rest) := by
  have hlt : (sel.setWidth 8).toNat < 4 := by bv_omega
  have hsel : (sel.setWidth 8).setWidth 2 = sel := by simp
  rw [withSel, if_pos hlt, hsel]

/-! ### Command words -/

/-- The word of a command byte carries it (R74). -/
theorem wordCmd_cmdWord (c : Byte) : wordCmd (cmdWord c) = c :=
  (BitVec.extractLsb'_append_eq_of_add_le (by decide)).trans BitVec.extractLsb'_append_eq_left

/-- The word of a command byte is valid (R74, R135). -/
theorem validWord_cmdWord (c : Byte) : validWord (cmdWord c) = true := by
  have hsync : wordSync (cmdWord c) = Config.sync := BitVec.extractLsb'_append_eq_left
  have hchk : wordChk (cmdWord c) = c ^^^ 0xFF :=
    (BitVec.extractLsb'_append_eq_of_add_le (by decide)).trans BitVec.extractLsb'_append_eq_right
  rw [validWord, hsync, hchk, wordCmd_cmdWord, beq_self_eq_true, beq_self_eq_true, Bool.and_self]

/-- A word that fails VALID is the row WORD_INVALID (R134). -/
theorem decodeCword_of_invalid {w : CmdWord} (h : validWord w = false) :
    decodeCword w = .wordInvalid w := by
  have hne : ∀ v : CmdWord, validWord v = true → w ≠ v := by
    rintro v hv rfl
    exact absurd (h.symm.trans hv) (by decide)
  rw [decodeCword, if_neg (hne _ (by decide)), if_neg (hne _ (by decide)), if_neg (hne _ (by decide)),
    h, if_neg (by decide)]

/-- The word of a command byte without an effect is the row CMD_RESERVED (R75). -/
theorem decodeCword_of_reserved {c : Byte} (h : knownCommand c = false) :
    decodeCword (cmdWord c) = .cmdReserved c := by
  have hne : ∀ v : CmdWord, knownCommand (wordCmd v) = true → cmdWord c ≠ v := by
    rintro v hv rfl
    rw [wordCmd_cmdWord, h] at hv
    exact absurd hv (by decide)
  rw [decodeCword, if_neg (hne _ (by decide)), if_neg (hne _ (by decide)), if_neg (hne _ (by decide)),
    validWord_cmdWord, if_pos rfl, wordCmd_cmdWord]

/-- A row of the CWORD format is read back from its word. -/
theorem decode_cword {w : CmdWord} {i : Instr} (h : decodeCword w = i) (rest : List Byte) :
    decode (fmtCword :: leBytes 4 w.toNat ++ rest) = .ok (i, rest) := by
  rw [← h]
  exact withField_bitVec fmtCword 4 w rest decodeCword

/-- A row of the PAYLOAD format is read back from its constant (R81). -/
theorem decode_payload {p : Payload} {i : Instr} (h : decodePayload p = some i) (rest : List Byte) :
    decode (fmtPayload :: leBytes 8 p.toNat ++ rest) = .ok (i, rest) := by
  show decodePayloadBytes (leBytes 8 p.toNat ++ rest) = _
  simp only [decodePayloadBytes, takeLE_leBytes, Nat.mod_eq_of_lt (show p.toNat < 256 ^ 8 from p.isLt),
    BitVec.ofNat_toNat, BitVec.setWidth_eq, h]

/-! ### Host input vectors -/

/-- The HOST byte is read back as its input record and its busy bit. -/
theorem decodeCodeByte_hostByte (busy : Bool) (i : Inputs) :
    decodeCodeByte fmtHost (hostByte busy i) = decodeHost i busy (hostByte busy i) := by
  have hlt : (hostByte busy i).toNat < 128 := by
    have := (BitVec.ofBool busy ++ i.toVector).isLt
    simp only [hostByte, BitVec.toNat_setWidth]
    omega
  have hvec : (hostByte busy i).setWidth 6 = i.toVector := by
    rw [hostByte, BitVec.setWidth_setWidth_of_le _ (by decide)]
    exact BitVec.setWidth_append_eq_right
  have hbusy : (hostByte busy i).getLsbD 6 = busy := by
    rw [hostByte, BitVec.getLsbD_setWidth, BitVec.getLsbD_append]
    simp
  show (if _ then _ else _) = _
  rw [if_pos hlt, hvec, hbusy, Inputs.ofVector_toVector]

/-- An operation of the HOST format is read back when its byte requests it. -/
theorem decode_hostByte {busy : Bool} {inp : Inputs} {i : Instr}
    (h : decodeHost inp busy (hostByte busy inp) = .ok i) (rest : List Byte) :
    decode (fmtHost :: hostByte busy inp :: rest) = .ok (i, rest) := by
  show (decodeCodeByte fmtHost (hostByte busy inp)).map _ = _
  rw [decodeCodeByte_hostByte, h]
  rfl

/-! ### Operations with more than one field -/

/-- STEP is read back with its input vector (R88). -/
theorem decode_step (inp : Inputs) (rest : List Byte) :
    decode (encode (.step inp) ++ rest) = .ok (.step inp, rest) := by
  have hlt : (inp.toVector.setWidth 8).toNat < 64 := by bv_omega
  show (if _ then _ else _) = _
  rw [if_pos hlt, show (inp.toVector.setWidth 8).setWidth 6 = inp.toVector by simp,
    Inputs.ofVector_toVector]
  rfl

/-- RFRAME is read back with its 33 pairs and its closing mark (R73). -/
theorem decode_rframe (hs ls : Dur) {data : List (Dur × Dur)} (closing : Dur) (rest : List Byte)
    (h : data.length = 32) : decode (encode (.rframe hs ls data closing) ++ rest) =
      .ok (.rframe hs ls data closing, rest) := by
  have hstart := takePairs_pairBytes [(hs, ls)] (pairBytes data ++ (leBytes 2 closing.toNat ++ rest))
  have hdata := takePairs_pairBytes data (leBytes 2 closing.toNat ++ rest)
  rw [h] at hdata
  show decodeRframe (pairBytes [(hs, ls)] ++ (pairBytes data ++ leBytes 2 closing.toNat) ++ rest) = _
  rw [List.append_assoc, List.append_assoc, decodeRframe]
  simp only [List.length_cons, List.length_nil, Nat.zero_add] at hstart
  simp only [hstart, hdata]
  exact withField_bitVec fmtRframe 2 closing rest (.rframe hs ls data)

/-! ### The obligation on the byte form -/

/-- Settles O1, by cases on the operation: a bare code is read by its format, an operand by its field. -/
theorem decodeOfEncodeIsTheOperation : Obligations.DecodeOfEncodeIsTheOperation := by
  intro i rest hwf
  cases i with
  | noedgeLo | noedgeHi | rise | fall => rfl
  | start | rejectIdle | rejectMark | bit1 | bit0 | rejectSpace => rfl
  | cmdSelectA | cmdSelectB | cmdDeselect => rfl
  | cmdReserved c =>
    have hc : knownCommand c = false := by simpa [Instr.wellFormed] using hwf
    exact decode_cword (decodeCword_of_reserved hc) rest
  | wordInvalid w =>
    have hw : validWord w = false := by simpa [Instr.wellFormed] using hwf
    exact decode_cword (decodeCword_of_invalid hw) rest
  | valid w => exact withField_bitVec fmtFunc 4 w rest .valid
  | payloadInit => exact decode_payload (p := 0x73FFFFFFFFFF7F7B) (by decide) rest
  | payloadPlay => exact decode_payload (p := 0x33FFCF81CF7F7F3B) (by decide) rest
  | payloadStop => exact decode_payload (p := 0x13FFFFFFFFFF7F1B) (by decide) rest
  | cstateInit | cstatePlay | cstateStop | cstateReserved => rfl
  | phaseIdle | phaseClkHi | phaseClkLo | phaseStbSetup => rfl
  | phaseStbLow | phaseStbHold | phaseByteGap | phaseInterbyte => rfl
  | txBit b => cases b <;> rfl
  | txByteFramed v => exact withField_bitVec fmtTxbyte 1 v rest .txByteFramed
  | txBytePlain v => exact withField_bitVec fmtTxbyte 1 v rest .txBytePlain
  | txFrame p => exact withField_bitVec fmtTxframe 8 p rest .txFrame
  | rframe hs ls data closing =>
    have hlen : data.length = 32 := by
      simp only [Instr.wellFormed, Bool.and_eq_true, decide_eq_true_eq] at hwf
      obtain ⟨⟨⟨-, hlen⟩, -⟩, -⟩ := hwf
      exact hlen
    exact decode_rframe hs ls closing rest hlen
  | step inp => exact decode_step inp rest
  | reset | stateClr => exact decode_hostByte rfl rest
  | txStart sel =>
    have hsel : (sel == Config.stReserved) = false := by simpa [Instr.wellFormed] using hwf
    refine decode_hostByte ?_ rest
    simp [decodeHost, Inputs.none, hsel]
  | txStartRefused sel => exact decode_hostByte rfl rest
  | txStep | advance | ovf | timeout | tmrClr => rfl
  | elapsed | ctxReset | complete => rfl
  | within m n =>
    have h := withTwoFields_leBytes fmtFunc (n := 2) m.isLt n.isLt rest
      fun a b => .within (BitVec.ofNat 16 a) (BitVec.ofNat 16 b)
    simp only [BitVec.ofNat_toNat, BitVec.setWidth_eq] at h
    exact h
  | command c => exact withField_bitVec fmtFunc 1 c rest .command
  | hi | lo | wait | idle => exact withField_leBytes fmtStimulus (n := 4) (of_decide_eq_true hwf) rest _
  | pulse h l =>
    obtain ⟨hh, hl⟩ := Bool.and_eq_true_iff.1 hwf
    exact withTwoFields_leBytes fmtStimulus (n := 4) (of_decide_eq_true hh) (of_decide_eq_true hl) rest
      .pulse
  | tx sel => exact withSel_setWidth fmtStimulus sel rest .tx
  | txw sel => exact withSel_setWidth fmtStimulus sel rest .txw
  | clr | startItem | b1 | b0 | close => rfl
  | word w => exact withField_bitVec fmtStimulus 4 w rest .word
  | cmd c => exact withField_bitVec fmtStimulus 1 c rest .cmd
  | dispatch => rfl

end Sys2Proof
end

section
/-! PROOFS. The rows of the code spaces as operations: symbol classes, command words, edge vectors and codes
(30_encoding.md R72, R75, R82, R83), and the step that runs the operation it decodes (R86). -/

namespace Sys2Proof.Machine

/-! ### Symbol classes -/

/-- Two windows are exclusive where one ends before the other begins (R100, R103). -/
theorem within_exclusive {m a b : Nat} (hab : 7 * a ≤ 3 * b) (ha : within m a = true) :
    within m b = false := by
  simp only [within, Bool.and_eq_true, decide_eq_true_eq] at ha
  have hb : ¬3 * b < 5 * m := by omega
  rw [within, decide_eq_false hb, Bool.false_and]

/-- The windows of the two spaces of a bit (R103). -/
theorem isOneSpace_of_isZeroSpace {l : Dur} (h : isZeroSpace l = true) : isOneSpace l = false :=
  within_exclusive (by decide) h

/-- The halves of a class name their windows; the table's own order of tests does not matter (R72, R103). -/
theorem markClass_eq_one_iff (h : Dur) : markClass h = 1 ↔ isBitMark h = true := by
  unfold markClass
  cases isBitMark h <;> cases isStartMark h <;> decide

theorem markClass_eq_two_iff (h : Dur) : markClass h = 2 ↔ isStartMark h = true := by
  unfold markClass
  cases hb : isBitMark h with
  | false => cases isStartMark h <;> decide
  | true =>
    rw [show isStartMark h = false from within_exclusive (by decide) hb]
    decide

theorem spaceClass_eq_one_iff (l : Dur) : spaceClass l = 1 ↔ isZeroSpace l = true := by
  unfold spaceClass
  cases isZeroSpace l <;> cases isOneSpace l <;> cases isStartSpace l <;> decide

theorem spaceClass_eq_two_iff (l : Dur) : spaceClass l = 2 ↔ isOneSpace l = true := by
  unfold spaceClass
  cases hz : isZeroSpace l with
  | false => cases isOneSpace l <;> cases isStartSpace l <;> decide
  | true =>
    rw [isOneSpace_of_isZeroSpace hz]
    cases isStartSpace l <;> decide

theorem spaceClass_eq_three_iff (l : Dur) : spaceClass l = 3 ↔ isStartSpace l = true := by
  unfold spaceClass
  cases hz : isZeroSpace l with
  | true =>
    rw [show isStartSpace l = false from within_exclusive (by decide) hz]
    cases isOneSpace l <;> decide
  | false =>
    cases ho : isOneSpace l with
    | false => cases isStartSpace l <;> decide
    | true =>
      rw [show isStartSpace l = false from within_exclusive (by decide) ho]
      decide

/-- A symbol code is the start code when its two halves are (R72). -/
theorem append_eq_startCode (m sp : BitVec 2) : m ++ sp = (0b1011 : BitVec 4) ↔ m = 2 ∧ sp = 3 := by
  revert m sp; decide

/-- The row of a symbol class, by the windows in RISE's order of tests (R72, R127). -/
theorem decodeSymbol_symbolClass (h l : Dur) (d : Bool) : decodeSymbol (symbolClass h l) d =
    if isStartMark h = true ∧ isStartSpace l = true then .start
    else if d = false then .rejectIdle
    else if ¬isBitMark h = true then .rejectMark
    else if isOneSpace l = true then .bit1
    else if isZeroSpace l = true then .bit0
    else .rejectSpace := by
  have hmark : (symbolClass h l).extractLsb' 2 2 = markClass h := BitVec.extractLsb'_append_eq_left
  have hspace : (symbolClass h l).extractLsb' 0 2 = spaceClass l := BitVec.extractLsb'_append_eq_right
  have hstart : symbolClass h l = 0b1011 ↔ isStartMark h = true ∧ isStartSpace l = true := by
    rw [← markClass_eq_two_iff, ← spaceClass_eq_three_iff]
    exact append_eq_startCode _ _
  unfold decodeSymbol
  simp only [hmark, hspace, hstart, markClass_eq_one_iff, spaceClass_eq_one_iff, spaceClass_eq_two_iff,
    ne_eq]

/-- Two operations that do the same on the registers at hand have the same outcome. -/
theorem State.onRx_congr {f g : RxOp} {s : State} (h : f s.rx = g s.rx) : s.onRx f = s.onRx g := by
  rw [State.onRx_eq, State.onRx_eq, h]

/-! ### Command words -/

/-- A CWORD row is the arm of COMPLETE that its word takes (R75, R134). -/
theorem exec_decodeCword (w : CmdWord) (s : State) : exec (decodeCword w) s =
    .next (s.fresh.onRx (if validWord w then acceptWord (wordCmd w) else discardWord w)) := by
  unfold decodeCword
  by_cases hA : w = 0x532C08F7
  · subst hA; rfl
  by_cases hB : w = 0x532CA45B
  · subst hB; rfl
  by_cases hD : w = 0x532C10EF
  · subst hD; rfl
  rw [if_neg hA, if_neg hB, if_neg hD]
  cases validWord w <;> rfl

/-- The accept arm writes the changer state alone and reports its byte (R134, R150). -/
theorem onRx_acceptWord (c : Byte) (s : State) : s.fresh.onRx (acceptWord c) = { s.fresh with
    rx := { s.rx with cstate := afterCommand c s.rx.cstate }, labels := [⟨s.now, .doneValid c⟩] } := by
  rw [State.onRx_eq, acceptWord, State.fresh_rx, command_eq]
  rfl

/-- A command byte without an effect keeps the changer state (R84, R150). -/
theorem afterCommand_of_reserved {c : Byte} (h : knownCommand c = false) (st : BitVec 2) :
    afterCommand c st = st := by
  simp only [knownCommand, Bool.or_eq_false_iff, beq_eq_false_iff_ne] at h
  obtain ⟨⟨hA, hB⟩, hD⟩ := h
  exact (if_neg (not_or.2 ⟨hA, hB⟩)).trans (if_neg hD)

/-! ### Phase codes -/

/-- A phase operation acts only in its phase (R166). -/
theorem inPhase_of_ne {p : TxPhase} {s : State} (h : s.tx.phase ≠ p) : inPhase p s = s.fresh := by
  rw [inPhase, State.onTx_eq, if_neg (by exact h)]
  rfl

/-! ### Steps -/

theorem step_of_empty {s : State} (h : s.stim = []) : step s = .next (restStep s) := by
  rw [step, h]

theorem step_of_decode {s : State} {i : Instr} {rest : List Byte} (hd : decode s.stim = .ok (i, rest)) :
    step s = exec i { s with stim := rest } := by
  unfold step
  split
  next hnil =>
    rw [hnil] at hd
    cases hd
  · rw [fetch, hd]
    rfl

theorem step_of_reject {s : State} {why : Reject} (hne : s.stim ≠ []) (hd : decode s.stim = .error why) :
    step s = .refused (.notAStimulus why) := by
  unfold step
  split
  next hnil => exact absurd hnil hne
  · rw [fetch, hd]
    rfl

/-! ### The obligations -/

/-- Settles O25: both sides test the windows in the same order, since the windows are exclusive. -/
theorem symbolClassSelectsTheBranch : Obligations.SymbolClassSelectsTheBranch := by
  intro s h l
  rw [decodeSymbol_symbolClass]
  rcases riseBranch_cases h l s.rx with ⟨hm, hs, hb⟩ |
    ⟨hn, ⟨hd, hb⟩ | ⟨hd, hm, hb⟩ | ⟨hd, hm, ⟨ho, hb⟩ | ⟨ho, hz, hb⟩ | ⟨ho, hz, hb⟩⟩⟩
  all_goals rw [State.onRx_congr (s := s.fresh) hb]
  · rw [if_pos ⟨hm, hs⟩]; rfl
  · rw [if_neg hn, if_pos hd]; rfl
  · simp only [if_neg hn, hd, hm]; rfl
  · simp only [if_neg hn, hd, hm, ho]; rfl
  · simp only [if_neg hn, hd, hm, ho, hz]; rfl
  · simp only [if_neg hn, hd, hm, ho, hz]; rfl

/-- Settles O28, by whether the held word is valid. -/
theorem completeRunsTheDecodedWord : Obligations.CompleteRunsTheDecodedWord := by
  intro s
  refine ⟨_, _, _, exec_decodeCword s.rx.cmdBuf s, rfl, rfl, ?_⟩
  cases hv : validWord s.rx.cmdBuf <;> simp [completeOp, hv]

/-- Settles O2, on the tables' own words. -/
theorem tableWordsDecodeToTheirRows : Obligations.TableWordsDecodeToTheirRows := by
  unfold Obligations.TableWordsDecodeToTheirRows
  decide

/-- Settles O3: an empty stimulus is a tick at rest, else the decoder's answer decides. -/
theorem stepRunsTheOperationAtTheHead : Obligations.StepRunsTheOperationAtTheHead :=
  fun _ => ⟨step_of_empty, fun _ _ => step_of_decode, fun _ => step_of_reject⟩

/-- Settles O11: the rows of R82, and the TMRCLR that ends an edge operation. -/
theorem edgeVectorSelectsTheOperation : Obligations.EdgeVectorSelectsTheOperation :=
  fun _ => ⟨rfl, rfl, ⟨_, rfl, rfl, rfl, rfl⟩, ⟨_, rfl, rfl, rfl, rfl⟩⟩

/-- Settles O29: a valid word's row is the accept arm of its byte, an invalid word's the discard arm. -/
theorem commandWordOperations : Obligations.CommandWordOperations := by
  refine fun s => ⟨?_, ?_, ?_, fun c hc => ?_, fun w => rfl⟩
  · exact congrArg Host.Outcome.next (onRx_acceptWord 0x08 s)
  · exact congrArg Host.Outcome.next (onRx_acceptWord 0xA4 s)
  · exact congrArg Host.Outcome.next (onRx_acceptWord 0x10 s)
  · have hres : knownCommand c = false := by simpa [Instr.wellFormed] using hc
    refine congrArg Host.Outcome.next ((onRx_acceptWord c s).trans ?_)
    rw [afterCommand_of_reserved hres]
    rfl

/-- Settles O37: the codes, and each phase operation outside its phase. -/
theorem enumOperationsAnswerTheirCodes : Obligations.EnumOperationsAnswerTheirCodes := by
  refine fun s => ⟨rfl, rfl, rfl, rfl, fun p hp hne => ?_⟩
  have hexec : exec p.1 s = .next (inPhase p.2 s) := by
    simp only [List.mem_cons, List.not_mem_nil, or_false] at hp
    rcases hp with rfl | rfl | rfl | rfl | rfl | rfl | rfl | rfl <;> rfl
  rw [hexec, inPhase_of_ne hne]

end Sys2Proof.Machine
end

section
/-! PROOFS. The stimulus: its items as ticks, the host list beside them, and the pseudo-items as their
expansions (30_encoding.md R86, R87). What the observer has already noted moves through every tick unread, so
operations run one after another are one run with their labels put together. -/

namespace Sys2Proof.Machine

/-! ### What was noted before -/

/-- The state with the labels `ls` noted before its own. -/
def State.withPast (ls : List Event) (s : State) : State := { s with labels := ls ++ s.labels }

/-- A run that reads no label and only adds its own behind, and that answers no value (R211). -/
structure KeepsPast (f : State → State) : Prop where
  result : ∀ s, (f s).result = s.result
  past : ∀ s ls, f (s.withPast ls) = (f s).withPast ls

theorem keepsPast_id : KeepsPast id := ⟨fun _ => rfl, fun _ _ => rfl⟩

theorem keepsPast_comp {f g : State → State} (hg : KeepsPast g) (hf : KeepsPast f) :
    KeepsPast fun s => g (f s) :=
  ⟨fun s => (hg.result (f s)).trans (hf.result s),
    fun s ls => (congrArg g (hf.past s ls)).trans (hg.past (f s) ls)⟩

theorem keepsPast_tick (inp : Inputs) : KeepsPast (tick inp) := by
  refine ⟨fun s => tick_result s inp, fun s ls => ?_⟩
  cases h : inp.rst with
  | true => simp [tick_of_rst _ _ h, State.withPast, State.resetTick, State.emit]
  | false => simp [tick_of_no_rst _ _ h, State.withPast, runTick, State.onRx_eq, State.onTx_eq]

theorem keepsPast_worldTick (level : Bool) : KeepsPast (worldTick level) :=
  ⟨worldTick_result level, fun s _ =>
    (keepsPast_tick _).past { s with host := (hostAct s.cfg s.rx.cstate s.tx.busy s.host).2 } _⟩

theorem keepsPast_times {f : State → State} (hf : KeepsPast f) : ∀ n, KeepsPast (times f n)
  | 0 => keepsPast_id
  | n + 1 => (keepsPast_comp (keepsPast_times hf n) hf :)

theorem keepsPast_holdLevel (level : Bool) (n : Nat) : KeepsPast (holdLevel level n) :=
  keepsPast_times (keepsPast_worldTick level) n

theorem keepsPast_holdOn (n : Nat) : KeepsPast (holdOn n) :=
  ⟨fun s => (keepsPast_holdLevel s.inp.remoteIn n).result s,
    fun s => (keepsPast_holdLevel s.inp.remoteIn n).past s⟩

theorem keepsPast_requestTick (sel : Sel) : KeepsPast (requestTick sel) :=
  ⟨fun s => (keepsPast_tick _).result s, fun s _ => (keepsPast_tick _).past s _⟩

theorem keepsPast_runPulse (h l : Nat) : KeepsPast (runPulse h l) :=
  (keepsPast_comp (keepsPast_holdLevel false l) (keepsPast_holdLevel true h) :)

/-- The labels of a first operation, then a run that starts afresh: the run going on. -/
theorem KeepsPast.after_fresh {g : State → State} (hg : KeepsPast g) {s : State} (h : s.result = .none) :
    { g s.fresh with labels := s.labels ++ (g s.fresh).labels } = g s := by
  have hs : s.fresh.withPast s.labels = s := by
    rw [State.withPast, State.fresh_labels, List.append_nil, State.fresh, ← h]
  have hrun := hg.past s.fresh s.labels
  rw [hs] at hrun
  exact hrun.symm

/-! ### Items one after another -/

/-- The item `i` is the run `f`. -/
structure Runs (i : Instr) (f : State → State) : Prop where
  keeps : KeepsPast f
  exec_eq : ∀ s, exec i s = .next (f s.fresh)

/-- The items `is` are the run `f`. -/
structure RunsAll (is : List Instr) (f : State → State) : Prop where
  keeps : KeepsPast f
  play_eq : ∀ s, play is s = some (f s.fresh)

theorem runsAll_nil : RunsAll [] id := ⟨keepsPast_id, fun _ => rfl⟩

theorem runsAll_cons {i : Instr} {is : List Instr} {f g : State → State} (hf : Runs i f)
    (hg : RunsAll is g) : RunsAll (i :: is) fun s => g (f s) := by
  refine ⟨keepsPast_comp hg.keeps hf.keeps, fun s => ?_⟩
  have hnone : (f s.fresh).result = .none := hf.keeps.result s.fresh
  simp only [play, hf.exec_eq, hg.play_eq, Option.map_some]
  rw [hg.keeps.after_fresh hnone]

theorem runsAll_map {α : Type} {i : α → Instr} {f : α → State → State} (h : ∀ a, Runs (i a) (f a)) :
    ∀ as : List α, RunsAll (as.map i) fun s => as.foldl (fun s a => f a s) s
  | [] => runsAll_nil
  | a :: as => runsAll_cons (h a) (runsAll_map h as)

theorem runs_hi (n : Nat) : Runs (.hi n) (holdLevel true n) := ⟨keepsPast_holdLevel true n, fun _ => rfl⟩
theorem runs_lo (n : Nat) : Runs (.lo n) (holdLevel false n) := ⟨keepsPast_holdLevel false n, fun _ => rfl⟩
theorem runs_wait (n : Nat) : Runs (.wait n) (holdOn n) := ⟨keepsPast_holdOn n, fun _ => rfl⟩
theorem runs_tx (sel : Sel) : Runs (.tx sel) (requestTick sel) := ⟨keepsPast_requestTick sel, fun _ => rfl⟩
theorem runs_startItem : Runs .startItem runStart := ⟨keepsPast_runPulse _ _, fun _ => rfl⟩

theorem runs_bit (b : Bool) : Runs (if b then .b1 else .b0) (runBit b) := by
  refine ⟨keepsPast_runPulse _ _, fun s => ?_⟩
  cases b <;> rfl

/-! ### Levels -/

/-- A level item is its ticks (R86). -/
theorem exec_level (level : Bool) (n : Nat) (s : State) :
    exec (if level then .hi n else .lo n) s = .next (holdLevel level n s.fresh) := by
  cases level <;> rfl

/-- A request keeps the level of the line (R86). -/
theorem drive_remoteIn (q : HostReq) (i : Inputs) : (q.drive i).remoteIn = i.remoteIn := by
  cases q <;> rfl

@[simp] theorem worldTick_remoteIn (level : Bool) (s : State) :
    (worldTick level s).inp.remoteIn = level := by
  rw [worldTick, tick_inp, drive_remoteIn]

theorem holdOn_succ (n : Nat) (s : State) : holdOn (n + 1) s = holdOn n (worldTick s.inp.remoteIn s) := by
  rw [holdOn, holdOn, worldTick_remoteIn, holdLevel, holdLevel, times_succ]

/-- The wait of TXW is a wait of some `n` ticks, busy before each; it ends busy only at its bound (R87). -/
theorem waitWhileBusy_eq_holdOn (m : Nat) : ∀ s : State, ∃ n ≤ m, waitWhileBusy m s = holdOn n s ∧
    ((holdOn n s).tx.busy = true → n = m) ∧ ∀ k < n, (holdOn k s).tx.busy = true := by
  induction m with
  | zero => exact fun s => ⟨0, Nat.le_refl 0, rfl, fun _ => rfl, fun k hk => absurd hk (Nat.not_lt_zero k)⟩
  | succ m ih =>
    intro s
    cases hb : s.tx.busy with
    | false =>
      refine ⟨0, Nat.zero_le _, by rw [waitWhileBusy, hb]; rfl, fun h => ?_, fun k hk =>
        absurd hk (Nat.not_lt_zero k)⟩
      exact absurd (hb.symm.trans h) (by decide)
    | true =>
      obtain ⟨n, hn, heq, hend, hbusy⟩ := ih (worldTick s.inp.remoteIn s)
      refine ⟨n + 1, Nat.succ_le_succ hn, ?_, ?_, fun k hk => ?_⟩
      · rw [waitWhileBusy, hb, if_pos rfl, heq, holdOn_succ]
      · rw [holdOn_succ]
        exact fun h => congrArg (· + 1) (hend h)
      · cases k with
        | zero => exact hb
        | succ k =>
          rw [holdOn_succ]
          exact hbusy k (Nat.lt_of_succ_lt_succ hk)

/-! ### A host list beside a tick -/

/-- A tick beside a host list: the list's request is asserted, the rest of the list stays (R86). -/
theorem worldTick_script (level : Bool) {s : State} {items rest : List HostItem} {q : HostReq}
    (h : s.host = .script items) (hact : scriptAct s.tx.busy items = (q, rest)) :
    worldTick level s =
      tick (q.drive { s.restInputs with remoteIn := level }) { s with host := .script rest } := by
  rw [worldTick, h, hostAct, hact]

/-- Two lists that act alike in a tick. -/
theorem worldTick_script_congr (level : Bool) {s : State} {items rest : List HostItem}
    (h : s.host = .script items) (hact : scriptAct s.tx.busy items = scriptAct s.tx.busy rest) :
    worldTick level s = worldTick level { s with host := .script rest } := by
  rw [worldTick_script level h hact]
  exact (worldTick_script level (s := { s with host := .script rest }) rfl rfl).symm

/-- One tick of a level beside a host list is STEP with the list's request (R86). -/
theorem exec_level_script (level : Bool) {s : State} {items rest : List HostItem} {q : HostReq}
    (h : s.host = .script items) (hact : scriptAct s.tx.busy items = (q, rest)) :
    exec (if level then .hi 1 else .lo 1) s =
      exec (.step (q.drive { s.restInputs with remoteIn := level })) { s with host := .script rest } :=
  (exec_level level 1 s).trans
    (congrArg Host.Outcome.next (worldTick_script level (s := s.fresh) h hact))

/-- A head of the list that uses no tick up passes the tick on to the rest (R86). -/
theorem exec_level_script_congr (level : Bool) {s : State} {items rest : List HostItem}
    (h : s.host = .script items) (hact : scriptAct s.tx.busy items = scriptAct s.tx.busy rest) :
    exec (if level then .hi 1 else .lo 1) s =
      exec (if level then .hi 1 else .lo 1) { s with host := .script rest } := by
  rw [exec_level, exec_level]
  exact congrArg Host.Outcome.next (worldTick_script_congr level (s := s.fresh) h hact)

/-- A list that asserts nothing and stays as it is leaves a tick of STEP (R86). -/
theorem exec_level_script_same (level : Bool) {s : State} {items : List HostItem}
    (h : s.host = .script items) (hact : scriptAct s.tx.busy items = (.none, items)) :
    exec (if level then .hi 1 else .lo 1) s =
      exec (.step { s.restInputs with remoteIn := level }) s := by
  rw [exec_level_script level h hact, ← h]
  rfl

/-! ### Words -/

/-- A word's symbols are a start and a symbol for each bit, bit 31 first (R58, R87). -/
theorem itemsOfWord_eq (w : CmdWord) :
    itemsOfWord w = .startItem :: (bitsOfWord w).map fun b => if b then .b1 else .b0 := by
  rw [itemsOfWord, bitsOfWord, List.map_map]
  refine congrArg (List.cons _) (List.map_congr_left fun i hi => ?_)
  simp [BitVec.getMsbD, List.mem_range.1 hi]

/-- Two fields side by side, as a number. -/
theorem toNat_append_eq_add {m n : Nat} (x : BitVec m) (y : BitVec n) :
    (x ++ y).toNat = x.toNat * 2 ^ n + y.toNat := by
  rw [BitVec.toNat_append, ← Nat.shiftLeft_add_eq_or_of_lt y.isLt, Nat.shiftLeft_eq]

/-- The word of a command byte as a sum of its fields (R74). -/
theorem cmdWord_eq_add (c : Byte) :
    cmdWord c = 0x532C0000 + (c.setWidth 32 <<< 8) + (c ^^^ 0xFF).setWidth 32 := by
  have hword : (cmdWord c).toNat = 0x532C * 65536 + (c.toNat * 256 + (c ^^^ 0xFF).toNat) := by
    have h := toNat_append_eq_add Config.sync (c ++ (c ^^^ 0xFF))
    rw [toNat_append_eq_add c] at h
    exact h
  have hc := c.isLt
  have hchk := (c ^^^ 0xFF).isLt
  have hsync : ((0x532C0000 : Nat) : CmdWord).toNat = 0x532C * 65536 := rfl
  apply BitVec.eq_of_toNat_eq
  rw [hword]
  simp only [BitVec.toNat_add, BitVec.toNat_shiftLeft, BitVec.toNat_setWidth, Nat.shiftLeft_eq,
    hsync]
  omega

/-! ### The obligations -/

/-- Settles O50: a level of `n + 1` ticks is its first tick and a run that goes on. -/
theorem stimulusItemsAreTicksOfStep : Obligations.StimulusItemsAreTicksOfStep := by
  refine fun s => ⟨fun _ => rfl, rfl, rfl, fun level n => ⟨exec_level level 0 s, ?_⟩, fun n => ?_⟩
  · refine ⟨_, _, exec_level level 1 s, fun habs => ?_, exec_level level n _, ?_⟩
    · exact congrArg Host.Outcome.next (worldTick_absent level s.fresh habs).symm
    · rw [exec_level]
      have hnone : (worldTick level s.fresh).result = .none := worldTick_result level s.fresh
      exact congrArg Host.Outcome.next ((keepsPast_holdLevel level n).after_fresh hnone).symm
  · exact (exec_level s.inp.remoteIn n s).symm

/-- Settles O52: a run of items is their composition; TXW's wait ends at the first tick that is not busy. -/
theorem pseudoItemsAreTheirExpansions : Obligations.PseudoItemsAreTheirExpansions := by
  intro s
  refine ⟨fun h l => ⟨_, rfl, ?_⟩, rfl, rfl, rfl, rfl, fun _ => rfl, fun w => ⟨_, rfl, ?_⟩, fun c => ?_,
    fun sel => ?_⟩
  · exact (runsAll_cons (runs_hi h) (runsAll_cons (runs_lo l) runsAll_nil)).play_eq s
  · rw [itemsOfWord_eq]
    exact (runsAll_cons runs_startItem (runsAll_map runs_bit _)).play_eq s
  · rw [← cmdWord_eq_add]
    rfl
  · have hplay (k : Nat) := (runsAll_cons (runs_tx sel) (runsAll_cons (runs_wait k) runsAll_nil)).play_eq s
    obtain ⟨n, hn, heq, hend, hbusy⟩ := waitWhileBusy_eq_holdOn (tFrame s.cfg) (requestTick sel s.fresh)
    exact ⟨n, _, hn, congrArg Host.Outcome.next heq, hplay n, hend, fun k hk => ⟨_, hplay k, hbusy k hk⟩⟩

/-- Settles O51, by the head of the list: a request, a tick used up, or the tick passed on to the rest. -/
theorem hostListRunsBesideTheStimulus : Obligations.HostListRunsBesideTheStimulus := by
  rintro s level r _ rfl _ rfl
  refine ⟨fun _ h => ?tx, fun h => ?clr, fun h => ?reset, fun _ h => ?wait, fun h => ?waitZero,
    fun _ h => ?txw, fun h => ⟨fun hb => ?busy, fun hb => ?done⟩, fun h => ?empty⟩
  case tx | clr | reset | wait | txw => exact exec_level_script level h rfl
  case waitZero => exact exec_level_script_congr level h rfl
  case busy => exact exec_level_script_same level h (by rw [scriptAct, hb, if_pos rfl])
  case done => exact exec_level_script_congr level h (by rw [scriptAct, hb]; rfl)
  case empty => exact exec_level_script_same level h rfl

end Sys2Proof.Machine
end

section
/-! PROOFS. The Tolerance Comparator (40_tolerance_comparator.md): the band as one decision, its corner cases,
and the windows of the decoder as ranges of integers. -/

namespace Sys2Proof.Machine

/-! ### The band -/

theorem within_eq_decide (m n : Nat) : within m n = decide (3 * n < 5 * m ∧ 5 * m < 7 * n) :=
  (Bool.decide_and _ _).symm

theorem within_iff {m n : Nat} : within m n = true ↔ 3 * n < 5 * m ∧ 5 * m < 7 * n := by
  rw [within_eq_decide, decide_eq_true_iff]

/-- A zero duration is never above the lower end (R100). -/
theorem within_zero_left (n : Nat) : within 0 n = false :=
  Bool.eq_false_iff.2 fun h => Nat.not_lt_zero _ (within_iff.1 h).1

/-- A zero nominal has nothing below its upper end (R100). -/
theorem within_zero_right (m : Nat) : within m 0 = false :=
  Bool.eq_false_iff.2 fun h => Nat.not_lt_zero _ (within_iff.1 h).2

theorem within_self {n : Nat} (h : 0 < n) : within n n = true :=
  within_iff.2 ⟨Nat.mul_lt_mul_of_pos_right (by decide) h, Nat.mul_lt_mul_of_pos_right (by decide) h⟩

/-! ### The windows -/

/-- Where 0.6 and 1.4 of nominal are integers, the window is the integers strictly between them (R102). -/
theorem within_iff_range {m n : Nat} (lo hi : Nat) (hlo : 3 * n + 5 = 5 * lo) (hhi : 7 * n = 5 * hi + 5) :
    within m n = true ↔ lo ≤ m ∧ m ≤ hi := by
  rw [within_iff]
  have hlower : 3 * n < 5 * m ↔ lo ≤ m := by omega
  have hupper : 5 * m < 7 * n ↔ m ≤ hi := by omega
  exact and_congr hlower hupper

/-- No duration is in two windows of which one ends before the other begins (R103). -/
theorem not_within_both {m a b : Nat} (hab : 7 * a ≤ 3 * b) : ¬(within m a = true ∧ within m b = true) :=
  fun ⟨ha, hb⟩ => Bool.eq_false_iff.1 (within_exclusive hab ha) hb

/-! ### The obligations -/

/-- Settles O15: the band's two comparisons are one decision. -/
theorem withinAnswersTheStrictBand : Obligations.WithinAnswersTheStrictBand := by
  refine fun m n s => ⟨?_, within_zero_left _, within_zero_right _, fun hn => within_self ?_⟩
  · rw [← within_eq_decide]
    rfl
  · exact Nat.pos_of_ne_zero fun h => hn (BitVec.eq_of_toNat_eq h)

/-- Settles O16: every nominal has integer ends, and of two windows one ends before the other begins. -/
theorem windowsAreTheIntegerRanges : Obligations.WindowsAreTheIntegerRanges :=
  fun _ => ⟨within_iff_range 5401 12599 rfl rfl, within_iff_range 2701 6299 rfl rfl,
    within_iff_range 391 909 rfl rfl, within_iff_range 1051 2449 rfl rfl, within_iff_range 391 909 rfl rfl,
    not_within_both (by decide), not_within_both (by decide), not_within_both (by decide),
    not_within_both (by decide)⟩

end Sys2Proof.Machine
end

section
/-! PROOFS. The Pulse Timer (41_pulse_timer.md): ADVANCE as a count of the elapsed time, ticks of the world
without an edge, and a tick with one. -/

namespace Sys2Proof.Machine

/-! ### The elapsed time -/

/-- The registers with the elapsed time `e` in the tally and the counter (R110). -/
def Rx.setTime (r : Rx) (e : Nat) : Rx :=
  { r with cnt := BitVec.ofNat 8 e, ovf := BitVec.ofNat 8 (e / 256) }

theorem Rx.time_setTime (r : Rx) {e : Nat} (h : e < 65536) : (r.setTime e).time = e := by
  simp only [Rx.time, Rx.setTime, BitVec.toNat_ofNat]
  omega

theorem Rx.setTime_time (r : Rx) : r.setTime r.time = r := by
  have hcnt := r.cnt.isLt
  have hc : BitVec.ofNat 8 r.time = r.cnt := by
    apply BitVec.eq_of_toNat_eq
    rw [BitVec.toNat_ofNat, Rx.time]
    omega
  have ho : BitVec.ofNat 8 (r.time / 256) = r.ovf := by
    rw [show r.time / 256 = r.ovf.toNat by rw [Rx.time]; omega, BitVec.ofNat_toNat, BitVec.setWidth_eq]
  rw [Rx.setTime, hc, ho]

/-- With the tally in its range the elapsed time is below the timeout (R113). -/
theorem Rx.time_lt {r : Rx} (h : r.ovf.toNat ≤ 253) : r.time < 65024 := by
  have hcnt := r.cnt.isLt
  unfold Rx.time
  omega

/-- Below the last tick ADVANCE counts, through the overflow of the counter or not (R111, R112). -/
theorem advanceOp_setTime_count (r : Rx) {e : Nat} (he : e < 65023) :
    advanceOp (r.setTime e) = (r.setTime (e + 1), []) := by
  have hcnt : BitVec.ofNat 8 (e + 1) = BitVec.ofNat 8 e + 1 := BitVec.ofNat_add e 1
  rcases advanceOp_cases (r.setTime e) with ⟨hc, h⟩ | ⟨hc, -, h⟩ | ⟨hc, ho, -⟩
  · have hovf : (e + 1) / 256 = e / 256 := by
      have : e % 256 ≠ 255 := fun he => hc (BitVec.eq_of_toNat_eq he)
      omega
    rw [h, Rx.setTime, Rx.setTime, hcnt, hovf]
  · have hlast : e % 256 = 255 := congrArg BitVec.toNat hc
    have hzero : BitVec.ofNat 8 e + 1 = 0 := by rw [show BitVec.ofNat 8 e = 255 from hc]; rfl
    have hovf : (e + 1) / 256 = e / 256 + 1 := by omega
    rw [h, Rx.setTime, Rx.setTime, hcnt, hzero, hovf, BitVec.ofNat_add]
    rfl
  · have hlast : e % 256 = 255 := congrArg BitVec.toNat hc
    have htally : e / 256 % 256 = 253 := congrArg BitVec.toNat ho
    omega

/-- At 65,023 ADVANCE is TIMEOUT: the time restarts in a cleared context (R113). -/
theorem advanceOp_setTime_timeout (r : Rx) :
    advanceOp (r.setTime 65023) = ((ctxReset r).setTime 0, [.timeout]) := rfl

/-! ### Quiet ticks -/

/-- The registers after `n` ticks without an edge: the elapsed time modulo 65,024, and a cleared context once
it has wrapped (R113, R116, R117). -/
def Rx.afterQuiet (r : Rx) (n : Nat) : Rx :=
  if r.time + n < 65024 then r.setTime (r.time + n) else (ctxReset r).setTime ((r.time + n) % 65024)

theorem Rx.afterQuiet_of_lt {r : Rx} {n : Nat} (h : r.time + n < 65024) :
    r.afterQuiet n = r.setTime (r.time + n) := if_pos h

theorem Rx.afterQuiet_of_le {r : Rx} {n : Nat} (h : 65024 ≤ r.time + n) :
    r.afterQuiet n = (ctxReset r).setTime ((r.time + n) % 65024) := if_neg (Nat.not_lt.2 h)

theorem Rx.afterQuiet_zero {r : Rx} (h : r.ovf.toNat ≤ 253) : r.afterQuiet 0 = r := by
  rw [Rx.afterQuiet_of_lt (Rx.time_lt h), Nat.add_zero, Rx.setTime_time]

theorem Rx.afterQuiet_time (r : Rx) (n : Nat) : (r.afterQuiet n).time = (r.time + n) % 65024 := by
  unfold Rx.afterQuiet
  split
  · rw [Rx.time_setTime _ (by omega)]
    omega
  · exact Rx.time_setTime _ (by omega)

theorem Rx.afterQuiet_frame (r : Rx) (n : Nat) :
    (r.afterQuiet n).cstate = r.cstate ∧ (r.afterQuiet n).remotePrev = r.remotePrev := by
  unfold Rx.afterQuiet
  split <;> exact ⟨rfl, rfl⟩

/-- One more quiet tick is one ADVANCE; it labels TIMEOUT when the time reaches a multiple of 65,024. -/
theorem advanceOp_afterQuiet (r : Rx) (n : Nat) : advanceOp (r.afterQuiet n) =
    (r.afterQuiet (n + 1), if (r.time + n) % 65024 = 65023 then [.timeout] else []) := by
  by_cases hlt : r.time + n < 65024
  · rw [Rx.afterQuiet_of_lt hlt, Nat.mod_eq_of_lt hlt]
    by_cases hlast : r.time + n = 65023
    · rw [Rx.afterQuiet_of_le (by omega), hlast, advanceOp_setTime_timeout, ← Nat.add_assoc, hlast]
      rfl
    · rw [Rx.afterQuiet_of_lt (by omega), advanceOp_setTime_count r (by omega), if_neg hlast]
      rfl
  · rw [Rx.afterQuiet_of_le (by omega), Rx.afterQuiet_of_le (by omega)]
    by_cases hlast : (r.time + n) % 65024 = 65023
    · rw [hlast, advanceOp_setTime_timeout, show (r.time + (n + 1)) % 65024 = 0 by omega]
      rfl
    · rw [advanceOp_setTime_count _ (by omega), if_neg hlast,
        show (r.time + (n + 1)) % 65024 = (r.time + n) % 65024 + 1 by omega]

/-! ### Labels of the transmitter -/

/-- A hand-over labels at most the end of the frame (R168). -/
theorem handOver_labels_ofTx (c : Cfg) (p : TxPhase) (t : Tx) :
    ∀ l ∈ (handOver c p t).2, l.ofTx = true := by
  cases p with
  | idle | clkHi | stbSetup | stbLow | byteGap | interbyte => exact List.forall_mem_nil _
  | clkLo =>
    show ∀ l ∈ (endClkLo c t).2, _
    unfold endClkLo
    split
    · exact List.forall_mem_nil _
    · split <;> exact List.forall_mem_nil _
  | stbHold =>
    show ∀ l ∈ (endStbHold c t).2, _
    unfold endStbHold
    split
    · exact List.forall_mem_singleton.2 rfl
    · exact List.forall_mem_nil _

/-- TXSTEP emits labels of the transmitter only (R211). -/
theorem txStepOp_labels_ofTx (c : Cfg) (inp : Inputs) (t : Tx) :
    ∀ l ∈ (txStepOp c inp t).2, l.ofTx = true := by
  by_cases hp : t.phase = .idle
  · rw [txStepOp_idle c inp t hp, txRequest_eq]
    split
    · exact List.forall_mem_singleton.2 rfl
    · exact List.forall_mem_nil _
  · rw [txStepOp_timed c inp t hp]
    by_cases hd : 1 < t.dly
    · rw [countDown_count _ _ hd]
      exact List.forall_mem_nil _
    · rw [countDown_last _ _ hd]
      exact handOver_labels_ofTx c t.phase t

/-- TXSTEP labels no timeout. -/
theorem count_timeout_txStepOp (c : Cfg) (inp : Inputs) (t : Tx) :
    (txStepOp c inp t).2.count .timeout = 0 :=
  List.count_eq_zero.2 fun h => Bool.noConfusion (txStepOp_labels_ofTx c inp t _ h)

/-! ### The world with no host -/

/-- One more tick of a level, at its end. -/
theorem holdLevel_succ (level : Bool) (n : Nat) (s : State) :
    holdLevel level (n + 1) s = worldTick level (holdLevel level n s) := times_add (worldTick level) n 1 s

theorem worldTick_host_absent (level : Bool) {s : State} (h : s.host = .absent) :
    (worldTick level s).host = .absent := by
  rw [worldTick_absent level s h, tick_host, h]

theorem holdLevel_host_absent (level : Bool) (n : Nat) {s : State} (h : s.host = .absent) :
    (holdLevel level n s).host = .absent :=
  times_keeps (P := fun t => t.host = .absent) _ (fun _ => worldTick_host_absent level) n s h

theorem worldTick_rx_absent (level : Bool) {s : State} (h : s.host = .absent) :
    (worldTick level s).rx = (rxTick { s.restInputs with remoteIn := level } s.rx).1 := by
  rw [worldTick_absent level s h]
  exact tick_rx s _ rfl

theorem worldTick_said_absent (level : Bool) {s : State} (h : s.host = .absent) :
    (worldTick level s).said = s.said ++ (rxTick { s.restInputs with remoteIn := level } s.rx).2 ++
      (txStepOp s.cfg { s.restInputs with remoteIn := level } s.tx).2 := by
  rw [worldTick_absent level s h]
  exact tick_said s _ rfl

/-- Quiet ticks of the world count the elapsed time (R116). -/
theorem holdLevel_quiet_rx {level : Bool} (n : Nat) {s : State} (h : s.host = .absent)
    (hl : level = s.rx.remotePrev) (hovf : s.rx.ovf.toNat ≤ 253) :
    (holdLevel level n s).rx = s.rx.afterQuiet n := by
  induction n with
  | zero => exact (Rx.afterQuiet_zero hovf).symm
  | succ n ih =>
    rw [holdLevel_succ, worldTick_rx_absent level (holdLevel_host_absent level n h), ih,
      rxTick_quiet _ _ rfl (hl.trans (Rx.afterQuiet_frame _ _).2.symm), advanceOp_afterQuiet]

/-- Quiet ticks of the world label TIMEOUT once for each multiple of 65,024 reached (R113). -/
theorem holdLevel_quiet_timeouts {level : Bool} (n : Nat) {s : State} (h : s.host = .absent)
    (hl : level = s.rx.remotePrev) (hovf : s.rx.ovf.toNat ≤ 253) :
    (holdLevel level n s).said.count .timeout = s.said.count .timeout + (s.rx.time + n) / 65024 := by
  induction n with
  | zero => rw [Nat.add_zero, Nat.div_eq_of_lt (Rx.time_lt hovf)]; rfl
  | succ n ih =>
    rw [holdLevel_succ, worldTick_said_absent level (holdLevel_host_absent level n h),
      holdLevel_quiet_rx n h hl hovf, rxTick_quiet _ _ rfl (hl.trans (Rx.afterQuiet_frame _ _).2.symm),
      advanceOp_afterQuiet, List.count_append, List.count_append, count_timeout_txStepOp, ih]
    by_cases hlast : (s.rx.time + n) % 65024 = 65023
    · rw [if_pos hlast, List.count_singleton_self]
      omega
    · rw [if_neg hlast, List.count_nil]
      omega

/-! ### A tick with an edge -/

/-- A tick with an edge and no clear is ADVANCE, the edge operation and the sampling of the line (R200). -/
theorem rxTick_edge (inp : Inputs) (r : Rx) (hc : inp.stateClr = false) (hl : inp.remoteIn ≠ r.remotePrev) :
    rxTick inp r = seqRx advanceOp
      (seqRx (if inp.remoteIn then edgeOp riseOp else edgeOp fallOp) (samplePrev inp.remoteIn)) r := by
  have hprev : (inp.remoteIn != (advanceOp r).1.remotePrev) = true := by
    rw [(advanceOp_frame r).2]
    exact bne_iff_ne.2 hl
  have hedge : edgeTick inp.remoteIn (advanceOp r).1 =
      (if inp.remoteIn then edgeOp riseOp else edgeOp fallOp) (advanceOp r).1 := by
    rw [edgeTick, if_pos hprev]
    split <;> rfl
  rw [rxTick, hc, seqRx, whenRx_false, List.nil_append]
  simp only [seqRx, hedge]

/-- After an edge the timer is at 0 and the line is sampled (R114, R200). -/
theorem rxTick_edge_timer (inp : Inputs) (r : Rx) (hc : inp.stateClr = false)
    (hl : inp.remoteIn ≠ r.remotePrev) :
    (rxTick inp r).1.cnt = 0 ∧ (rxTick inp r).1.ovf = 0 ∧ (rxTick inp r).1.remotePrev = inp.remoteIn := by
  rw [rxTick_edge inp r hc hl]
  split <;> exact ⟨rfl, rfl, rfl⟩

/-- A falling edge captures the elapsed time of its tick, and labels it (R118, R126). -/
theorem rxTick_fall (inp : Inputs) (r : Rx) (hc : inp.stateClr = false) (hl : inp.remoteIn = false)
    (hprev : r.remotePrev = true) : rxTick inp r =
      ({ (advanceOp r).1 with hiDur := elapsedOf (advanceOp r).1, cnt := 0, ovf := 0, remotePrev := false },
        (advanceOp r).2 ++ [.fall (elapsedOf (advanceOp r).1)]) := by
  rw [rxTick_edge inp r hc (by rw [hl, hprev]; exact Bool.false_ne_true), hl]
  rfl

/-- With no host the tick of a falling edge captures the time one tick on, and labels it (R118, R126). -/
theorem worldTick_fall {s : State} (h : s.host = .absent) (hprev : s.rx.remotePrev = true) :
    (worldTick false s).rx = { (advanceOp s.rx).1 with
      hiDur := elapsedOf (advanceOp s.rx).1, cnt := 0, ovf := 0, remotePrev := false } ∧
    .fall (elapsedOf (advanceOp s.rx).1) ∈ (worldTick false s).said := by
  have hfall := rxTick_fall { s.restInputs with remoteIn := false } s.rx rfl rfl hprev
  rw [worldTick_rx_absent false h, worldTick_said_absent false h, hfall]
  exact ⟨rfl, by simp⟩

/-- The first tick of a new level restarts the timer (R114). -/
theorem worldTick_edge_timer {level : Bool} {s : State} (h : s.host = .absent)
    (hl : level ≠ s.rx.remotePrev) :
    (worldTick level s).rx.cnt = 0 ∧ (worldTick level s).rx.ovf = 0 ∧
    (worldTick level s).rx.remotePrev = level := by
  rw [worldTick_rx_absent level h]
  exact rxTick_edge_timer _ _ rfl hl

/-- From its edge on a level counts its own ticks (R117). -/
theorem holdLevel_edge_rx {level : Bool} (n : Nat) {s : State} (h : s.host = .absent)
    (hl : level ≠ s.rx.remotePrev) :
    (holdLevel level (n + 1) s).rx = (worldTick level s).rx.afterQuiet n := by
  obtain ⟨-, hovf, hprev⟩ := worldTick_edge_timer h hl
  exact holdLevel_quiet_rx n (worldTick_host_absent level h) hprev.symm (by rw [hovf]; exact Nat.zero_le _)

/-- After a mark of `n + 1` ticks the line was high, and the next ADVANCE makes the time `n + 1` modulo
65,024 (R117). -/
theorem advanceOp_mark (n : Nat) {s : State} (h : s.host = .absent) (hl : s.rx.remotePrev = false) :
    (holdLevel true (n + 1) s).rx.remotePrev = true ∧
    (advanceOp (holdLevel true (n + 1) s).rx).1.time = (n + 1) % 65024 := by
  have hedge : true ≠ s.rx.remotePrev := by simp [hl]
  obtain ⟨hcnt, hovf, hprev⟩ := worldTick_edge_timer h hedge
  have hzero : (worldTick true s).rx.time = 0 := by rw [Rx.time, hcnt, hovf]; rfl
  rw [holdLevel_edge_rx n h hedge, advanceOp_afterQuiet, Rx.afterQuiet_time, hzero, Nat.zero_add]
  exact ⟨(Rx.afterQuiet_frame _ n).2.trans hprev, rfl⟩

/-! ### The obligations -/

/-- Settles O17: ELAPSED as a number. -/
theorem elapsedAnswersTallyAndCounter : Obligations.ElapsedAnswersTallyAndCounter := by
  intro s
  rw [show 256 * s.rx.ovf.toNat + s.rx.cnt.toNat = s.rx.time from rfl, ← elapsedOf_eq]
  rfl

/-- Settles O18: ADVANCE on the registers as an elapsed time, below 65,023 and at it. -/
theorem advanceCountsOneTick : Obligations.AdvanceCountsOneTick := by
  refine fun s _ => ⟨s.fresh.onRx advanceOp, rfl, fun h => ?count, fun h => ?timeout, rfl⟩
  case count =>
    have hadv : advanceOp s.rx = (s.rx.setTime (s.rx.time + 1), []) := by
      have hset := advanceOp_setTime_count s.rx h
      rwa [Rx.setTime_time] at hset
    rw [State.onRx_rx, State.onRx_labels, State.fresh_rx, hadv]
    exact ⟨Rx.time_setTime _ (by omega), rfl, rfl⟩
  case timeout =>
    have hadv : advanceOp s.rx = ((ctxReset s.rx).setTime 0, [.timeout]) := by
      have hset := advanceOp_setTime_timeout s.rx
      rwa [← h, Rx.setTime_time] at hset
    rw [State.onRx_rx, State.onRx_labels, State.fresh_rx, hadv]
    exact ⟨rfl, ⟨rfl, rfl, rfl, rfl, rfl, rfl⟩, rfl, rfl, rfl⟩

/-- Settles O19: OVF below the timeout's tally and at it; the other two are their register writes. -/
theorem timerEventsWriteTheirRegisters : Obligations.TimerEventsWriteTheirRegisters := by
  refine fun s => ⟨congrArg Host.Outcome.next ?_, rfl, rfl⟩
  rw [State.onRx_eq, State.fresh_rx]
  rcases ovfOp_cases s.rx with ⟨hne, h⟩ | ⟨heq, h⟩
  · rw [h, if_neg hne]
    rfl
  · rw [h, if_pos heq]
    rfl

/-- Settles O20: quiet ticks in closed form, before the first wrap and after it. -/
theorem quietTicksCountModuloTheTimeout : Obligations.QuietTicksCountModuloTheTimeout := by
  intro s n ⟨habs, hline⟩ hovf
  have hrx : (holdOn n s.fresh).rx = s.rx.afterQuiet n := holdLevel_quiet_rx n (s := s.fresh) habs hline hovf
  have hcount : (holdOn n s.fresh).said.count .timeout = (s.rx.time + n) / 65024 :=
    (holdLevel_quiet_timeouts n (s := s.fresh) habs hline hovf).trans (Nat.zero_add _)
  obtain ⟨hcstate, hprev⟩ := Rx.afterQuiet_frame s.rx n
  refine ⟨holdOn n s.fresh, rfl, ?_, ?_, ?_, ?_, fun hlt => ?_, fun hle => ?_⟩
  · rw [hrx, Rx.afterQuiet_time]
  · rw [← hcount, List.count, List.countP_eq_length_filter]
  · rw [hrx, hcstate]
  · rw [hrx, hprev]
  · rw [hrx, Rx.afterQuiet_of_lt hlt]
    rfl
  · rw [hrx, Rx.afterQuiet_of_le hle]
    exact ⟨rfl, rfl, rfl, rfl, rfl⟩

/-- Settles O21: the rising edge clears the timer, quiet ticks count from it, and the falling edge takes the
time one tick on. -/
theorem markIsCapturedModuloTheTimeout : Obligations.MarkIsCapturedModuloTheTimeout := by
  intro s h habs hlow hpos
  obtain ⟨n, rfl⟩ := Nat.exists_eq_add_of_le' hpos
  have habsent : (holdLevel true (n + 1) s.fresh).host = .absent := holdLevel_host_absent true (n + 1) habs
  obtain ⟨hprev, htime⟩ := advanceOp_mark n (s := s.fresh) habs hlow
  obtain ⟨hrx, hsaid⟩ := worldTick_fall (s := (holdLevel true (n + 1) s.fresh).fresh) habsent hprev
  refine ⟨_, worldTick false (holdLevel true (n + 1) s.fresh).fresh, rfl, rfl, ?_⟩
  rw [hrx]
  exact ⟨(elapsedOf_toNat _).trans htime, hsaid, rfl, rfl⟩

end Sys2Proof.Machine
end

section
/-! PROOFS. The Remote Decoder (42_remote_decoder.md): VALID, RISE by its tests, a bit taken with the COMPLETE
that can follow it, and what moves the changer state. -/

namespace Sys2Proof.Machine

/-! ### Command words -/

/-- A word is its three fields (R74). -/
theorem append_wordFields (w : CmdWord) : wordSync w ++ (wordCmd w ++ wordChk w) = w := by
  have hlow : wordCmd w ++ wordChk w = w.extractLsb' 0 16 :=
    BitVec.extractLsb'_append_extractLsb'_eq_extractLsb' rfl
  rw [hlow]
  exact (BitVec.extractLsb'_append_extractLsb'_eq_extractLsb' rfl).trans BitVec.extractLsb'_eq_self

/-- The valid words are the words of the command bytes (R74). -/
theorem validWord_iff_exists_cmdWord {w : CmdWord} : validWord w = true ↔ ∃ c, w = cmdWord c := by
  refine ⟨fun h => ⟨wordCmd w, ?_⟩, ?_⟩
  · simp only [validWord, Bool.and_eq_true, beq_iff_eq] at h
    obtain ⟨hsync, hchk⟩ := h
    rw [cmdWord, ← hsync, ← hchk, append_wordFields]
  · rintro ⟨c, rfl⟩
    exact validWord_cmdWord c

/-- The word of a command byte as its fields put together (R74). -/
theorem cmdWord_eq_or (c : Byte) :
    cmdWord c = (0x532C0000 : CmdWord) ||| (c.setWidth 32 <<< 8) ||| (c ^^^ 0xFF).setWidth 32 := by
  revert c
  decide

/-- A byte is the complement of another when the two add up to 255 (R135). -/
theorem eq_complement_iff (k c : Byte) : k = c ^^^ 0xFF ↔ k.toNat + c.toNat = 255 := by
  rw [show c ^^^ 0xFF = ~~~c from BitVec.xor_allOnes, ← BitVec.toNat_inj, BitVec.toNat_not]
  have := c.isLt
  omega

/-- VALID in numbers: the upper half is the sync, the low two bytes add up to 255 (R135). -/
theorem validWord_eq_decide (w : CmdWord) : validWord w =
    decide (w.toNat / 65536 = 0x532C ∧ w.toNat % 256 + w.toNat / 256 % 256 = 255) := by
  have hw := w.isLt
  have hsync : (wordSync w).toNat = w.toNat / 65536 := by
    simp only [wordSync, BitVec.extractLsb'_toNat, Nat.shiftRight_eq_div_pow]
    omega
  have hcmd : (wordCmd w).toNat = w.toNat / 256 % 256 := by
    simp only [wordCmd, BitVec.extractLsb'_toNat, Nat.shiftRight_eq_div_pow]
  have hchk : (wordChk w).toNat = w.toNat % 256 := by
    simp only [wordChk, BitVec.extractLsb'_toNat, Nat.shiftRight_zero]
  have hiff : wordSync w = Config.sync ↔ w.toNat / 65536 = 0x532C := by
    rw [← BitVec.toNat_inj, hsync]
    rfl
  rw [Bool.eq_iff_iff, decide_eq_true_iff, validWord, Bool.and_eq_true, beq_iff_eq, beq_iff_eq, hiff,
    eq_complement_iff, hchk, hcmd]

/-! ### The windows of the symbols (R102) -/

theorem isStartMark_iff {d : Dur} : isStartMark d = true ↔ 5401 ≤ d.toNat ∧ d.toNat ≤ 12599 :=
  within_iff_range 5401 12599 rfl rfl
theorem isStartSpace_iff {d : Dur} : isStartSpace d = true ↔ 2701 ≤ d.toNat ∧ d.toNat ≤ 6299 :=
  within_iff_range 2701 6299 rfl rfl
theorem isBitMark_iff {d : Dur} : isBitMark d = true ↔ 391 ≤ d.toNat ∧ d.toNat ≤ 909 :=
  within_iff_range 391 909 rfl rfl
theorem isOneSpace_iff {d : Dur} : isOneSpace d = true ↔ 1051 ≤ d.toNat ∧ d.toNat ≤ 2449 :=
  within_iff_range 1051 2449 rfl rfl
theorem isZeroSpace_iff {d : Dur} : isZeroSpace d = true ↔ 391 ≤ d.toNat ∧ d.toNat ≤ 909 :=
  within_iff_range 391 909 rfl rfl

/-- Which bit a space is (R103, R131, R132). -/
theorem isOneSpace_eq_decide {d : Dur} (h : (isOneSpace d || isZeroSpace d) = true) :
    isOneSpace d = decide (1051 ≤ d.toNat) := by
  rw [Bool.or_eq_true, isOneSpace_iff, isZeroSpace_iff] at h
  rw [Bool.eq_iff_iff, isOneSpace_iff, decide_eq_true_iff]
  omega

/-! ### A bit taken -/

theorem ctxReset_contextZero (r : Rx) : (ctxReset r).contextZero := ⟨rfl, rfl, rfl, rfl, rfl, rfl⟩

/-- The buffer with a bit shifted in at the bottom (R76, R131, R132). -/
def shiftIn (w : CmdWord) (b : Bool) : CmdWord := (w <<< 1) ||| (BitVec.ofBool b).setWidth 32

theorem shiftIn_eq (w : CmdWord) (b : Bool) : shiftIn w b = (w <<< 1) ||| (if b then 1 else 0) := by
  cases b <;> rfl

theorem shiftIn_false (w : CmdWord) : shiftIn w false = w <<< 1 := BitVec.or_zero

/-- The label of a bit (R131, R132). -/
def bitLabel (b : Bool) : Label := if b then .bit1 else .bit0

theorem bitOp_eq (b : Bool) (r : Rx) :
    bitOp b r = ({ r with cmdBuf := shiftIn r.cmdBuf b, nbits := r.nbits + 1 }, [bitLabel b]) := rfl

/-- COMPLETE labels its word (R134). -/
theorem ofComplete_doneLabel (w : CmdWord) : (doneLabel w).ofComplete = true := by
  unfold doneLabel
  split <;> rfl

/-- A bit as RISE takes it, with the COMPLETE that can follow it (R127). -/
def takeBit (b : Bool) : RxOp := seqRx (bitOp b) completeIfFull

/-- A word that is not full waits. -/
theorem completeIfFull_of_ne {r : Rx} (h : r.nbits ≠ 32) : completeIfFull r = (r, []) := if_neg h

/-- The 32nd bit completes the word (R127, R134). -/
theorem takeBit_full (b : Bool) {r : Rx} (h : r.nbits = 31) : takeBit b r =
    (ctxReset { r with cstate := afterWord (shiftIn r.cmdBuf b) r.cstate },
      [bitLabel b, doneLabel (shiftIn r.cmdBuf b)]) := by
  have hfull : (bitOp b r).1.nbits = Config.wordBits := by
    rw [bitOp_eq]
    simp only [h]
    rfl
  rw [takeBit, seqRx, completeIfFull, if_pos hfull, completeOp_eq, bitOp_eq]
  rfl

/-- Any other bit is only shifted in (R127). -/
theorem takeBit_of_ne (b : Bool) {r : Rx} (h : r.nbits ≠ 31) : takeBit b r = bitOp b r := by
  have hopen : (bitOp b r).1.nbits ≠ 32 := fun h32 => h (by
    rw [bitOp_eq] at h32
    bv_omega)
  rw [takeBit, seqRx, completeIfFull_of_ne hopen, List.append_nil]

/-! ### RISE -/

/-- RISE by its tests, in the source's order: COMPLETE can follow a bit only (R127). -/
theorem riseOp_eq (d : Dur) (r : Rx) : riseOp d r =
    if isStartMark r.hiDur = true ∧ isStartSpace d = true then startOp { r with loDur := d }
    else if r.decoding = false then rejectWith .rejectIdle r
    else if isBitMark r.hiDur = false then rejectWith .rejectMark r
    else if (isOneSpace d || isZeroSpace d) = true then takeBit (isOneSpace d) { r with loDur := d }
    else rejectWith .rejectSpace r := by
  rcases riseBranch_cases r.hiDur d { r with loDur := d } with ⟨hm, hs, hb⟩ |
    ⟨hn, ⟨hd, hb⟩ | ⟨hd, hm, hb⟩ | ⟨hd, hm, ⟨ho, hb⟩ | ⟨ho, hz, hb⟩ | ⟨ho, hz, hb⟩⟩⟩
  all_goals rw [riseOp, seqRx, hb]
  · rw [if_pos ⟨hm, hs⟩]; rfl
  · rw [if_neg hn, if_pos hd]; rfl
  · simp only [if_neg hn, show r.decoding = true from hd, hm]; rfl
  · simp only [if_neg hn, show r.decoding = true from hd, hm, ho]; rfl
  · simp only [if_neg hn, show r.decoding = true from hd, hm, ho, hz]; rfl
  · simp only [if_neg hn, show r.decoding = true from hd, hm, ho, hz]; rfl

/-- The start symbol opens a frame whether one is open or not (R127, R128). -/
theorem riseOp_of_start {d : Dur} {r : Rx} (hm : isStartMark r.hiDur = true) (hs : isStartSpace d = true) :
    riseOp d r = startOp { r with loDur := d } := by
  rw [riseOp_eq, if_pos ⟨hm, hs⟩]

/-- A bit's mark and space in DECODING are taken as the bit (R127). -/
theorem riseOp_of_dataSymbol {d : Dur} {r : Rx} (hdec : r.decoding = true)
    (hp : isDataSymbol (r.hiDur, d) = true) : riseOp d r = takeBit (isOneSpace d) { r with loDur := d } := by
  rw [isDataSymbol, Bool.and_eq_true] at hp
  obtain ⟨hm, hd⟩ := hp
  have hn : ¬(isStartMark r.hiDur = true ∧ isStartSpace d = true) :=
    fun h => not_within_both (by decide) ⟨hm, h.1⟩
  rw [riseOp_eq, if_neg hn, if_neg (by rw [hdec]; decide), if_neg (by rw [hm]; decide), if_pos hd]

/-- Outside DECODING a rising edge completes nothing (R127). -/
theorem riseOp_of_idle {d : Dur} {r : Rx} (hdec : r.decoding = false) :
    (riseOp d r).1.cstate = r.cstate ∧ (riseOp d r).2.filter Label.ofComplete = [] := by
  rw [riseOp_eq, if_pos hdec]
  split <;> exact ⟨rfl, rfl⟩

/-- What a start, any reject and any bit taken have in common, RISE has (R127). -/
theorem riseOp_elim {P : Rx × List Label → Prop} (d : Dur) (r : Rx) (hstart : P (startOp { r with loDur := d }))
    (hreject : ∀ l, P (rejectWith l r)) (hbit : ∀ b, P (takeBit b { r with loDur := d })) :
    P (riseOp d r) := by
  rw [riseOp_eq]
  split
  · exact hstart
  · split
    · exact hreject _
    · split
      · exact hreject _
      · split
        · exact hbit _
        · exact hreject _

/-- RISE leaves the line sample alone. -/
theorem riseOp_remotePrev (d : Dur) (r : Rx) : (riseOp d r).1.remotePrev = r.remotePrev := by
  refine riseOp_elim (P := fun x => x.1.remotePrev = r.remotePrev) d r rfl (fun _ => rfl) fun b => ?_
  by_cases h : r.nbits = 31
  · rw [takeBit_full (r := { r with loDur := d }) b h]
    rfl
  · rw [takeBit_of_ne (r := { r with loDur := d }) b h]
    rfl

/-! ### What moves the changer state -/

/-- The changer state goes from `st` to `st'` by a valid word among the labels `ls`, or stays (R134, R153). -/
def MovesByCommand (st st' : BitVec 2) (ls : List Label) : Prop :=
  st' = st ∨ ∃ c, .doneValid c ∈ ls ∧ st' = afterCommand c st

theorem afterWord_moves (w : CmdWord) (st : BitVec 2) {ls : List Label} (h : doneLabel w ∈ ls) :
    MovesByCommand st (afterWord w st) ls := by
  unfold doneLabel at h
  unfold afterWord
  split at h
  next hv => exact .inr ⟨wordCmd w, h, if_pos hv⟩
  next hv => exact .inl (if_neg hv)

theorem takeBit_moves (b : Bool) (r : Rx) : MovesByCommand r.cstate (takeBit b r).1.cstate (takeBit b r).2 := by
  by_cases h : r.nbits = 31
  · rw [takeBit_full b h]
    exact afterWord_moves _ _ (by simp)
  · rw [takeBit_of_ne b h]
    exact .inl rfl

theorem riseOp_moves (d : Dur) (r : Rx) : MovesByCommand r.cstate (riseOp d r).1.cstate (riseOp d r).2 :=
  riseOp_elim (P := fun x => MovesByCommand r.cstate x.1.cstate x.2) d r (.inl rfl) (fun _ => .inl rfl)
    fun b => takeBit_moves b { r with loDur := d }

theorem edgeTick_moves (level : Bool) (r : Rx) :
    MovesByCommand r.cstate (edgeTick level r).1.cstate (edgeTick level r).2 := by
  rcases edgeTick_cases level r with ⟨-, e⟩ | ⟨-, -, e⟩ | ⟨-, -, e⟩ <;> rw [e]
  · exact .inl rfl
  · exact riseOp_moves _ r
  · exact .inl rfl

/-- STATECLR, where requested, comes first; then the changer state moves by a valid word (R152, R200). -/
theorem rxTick_moves (inp : Inputs) (r : Rx) :
    MovesByCommand (if inp.stateClr then 0 else r.cstate) (rxTick inp r).1.cstate (rxTick inp r).2 ∧
    (inp.stateClr = true → .stateClr ∈ (rxTick inp r).2) := by
  have hclr : (whenRx inp.stateClr stateClrOp r).1.cstate = (if inp.stateClr then 0 else r.cstate) ∧
      (inp.stateClr = true → .stateClr ∈ (whenRx inp.stateClr stateClrOp r).2) := by
    cases inp.stateClr with
    | true => exact ⟨rfl, fun _ => List.mem_singleton_self _⟩
    | false => exact ⟨rfl, fun h => absurd h (by decide)⟩
  obtain ⟨hcs, hlab⟩ := hclr
  refine ⟨?_, fun h => List.mem_append_left _ (hlab h)⟩
  have hmove := edgeTick_moves inp.remoteIn (advanceOp (whenRx inp.stateClr stateClrOp r).1).1
  rw [(advanceOp_frame _).1, hcs] at hmove
  refine hmove.imp id fun ⟨c, hc, h⟩ => ⟨c, ?_, h⟩
  simp only [rxTick, seqRx_snd, List.mem_append]
  exact .inr (.inr (.inl hc))

/-- A command byte moves every state to the same one, PLAY or STOP, or none (R150, R153). -/
theorem afterCommand_eq_self_or (c : Byte) (st : BitVec 2) :
    afterCommand c st = st ∨ afterCommand c st = afterCommand c 0 ∧ afterCommand c 0 ≠ 0 := by
  unfold afterCommand
  split
  · exact .inr ⟨rfl, by decide⟩
  · split
    · exact .inr ⟨rfl, by decide⟩
    · exact .inl rfl

/-- Where a command moves the changer state, it writes PLAY or STOP whatever stood there (R153). -/
theorem MovesByCommand.stays_or {st st' : BitVec 2} {ls : List Label} (h : MovesByCommand st st' ls) :
    st' = st ∨ ∃ c, .doneValid c ∈ ls ∧ st' = afterCommand c 0 ∧ st' ≠ 0 := by
  rcases h with h | ⟨c, hc, rfl⟩
  · exact .inl h
  · refine (afterCommand_eq_self_or c st).imp id fun ⟨heq, hne⟩ => ⟨c, hc, heq, ?_⟩
    rwa [heq]

/-! ### The obligations -/

/-- Settles O26: RISE by its tests, the windows as ranges, a bit by whether it is the 32nd. -/
theorem riseTakesItsBranch : Obligations.RiseTakesItsBranch := by
  rintro s _ _ rfl rfl
  refine ⟨s.fresh.onRx (edgeOp riseOp), rfl, rfl, rfl, riseOp_remotePrev _ _, rfl, rfl, rfl, rfl, ?_⟩
  have hl : (elapsedOf s.rx).toNat = s.rx.time := elapsedOf_toNat s.rx
  have hstart : (5401 ≤ s.rx.hiDur.toNat ∧ s.rx.hiDur.toNat ≤ 12599 ∧
      2701 ≤ s.rx.time ∧ s.rx.time ≤ 6299) ↔
      isStartMark s.rx.hiDur = true ∧ isStartSpace (elapsedOf s.rx) = true := by
    rw [isStartMark_iff, isStartSpace_iff, hl, and_assoc]
  have hmark : ¬(391 ≤ s.rx.hiDur.toNat ∧ s.rx.hiDur.toNat ≤ 909) ↔ isBitMark s.rx.hiDur = false := by
    rw [← isBitMark_iff, Bool.not_eq_true]
  have hspace : (1051 ≤ s.rx.time ∧ s.rx.time ≤ 2449) ∨ (391 ≤ s.rx.time ∧ s.rx.time ≤ 909) ↔
      (isOneSpace (elapsedOf s.rx) || isZeroSpace (elapsedOf s.rx)) = true := by
    rw [Bool.or_eq_true, isOneSpace_iff, isZeroSpace_iff, hl]
  simp only [hstart, hmark, hspace, State.onRx_said, State.onRx_rx, State.fresh_rx, State.fresh_said,
    List.nil_append, edgeOp_fst, edgeOp_snd, riseOp_eq]
  by_cases h1 : isStartMark s.rx.hiDur = true ∧ isStartSpace (elapsedOf s.rx) = true
  · simp only [if_pos h1]
    exact ⟨rfl, rfl, rfl, rfl, rfl, hl, rfl⟩
  simp only [if_neg h1]
  by_cases h2 : s.rx.decoding = false
  · simp only [if_pos h2]
    exact ⟨rfl, ctxReset_contextZero s.rx, rfl⟩
  simp only [if_neg h2]
  by_cases h3 : isBitMark s.rx.hiDur = false
  · simp only [if_pos h3]
    exact ⟨rfl, ctxReset_contextZero s.rx, rfl⟩
  simp only [if_neg h3]
  by_cases h4 : (isOneSpace (elapsedOf s.rx) || isZeroSpace (elapsedOf s.rx)) = true
  · simp only [if_pos h4]
    rintro _ _ rfl rfl
    rw [← hl, ← isOneSpace_eq_decide h4, ← shiftIn_eq]
    by_cases hfull : s.rx.nbits = 31
    · rw [if_pos hfull, takeBit_full (r := { s.rx with loDur := elapsedOf s.rx }) _ hfull]
      exact ⟨rfl, ctxReset_contextZero s.rx, rfl⟩
    · rw [if_neg hfull, takeBit_of_ne (r := { s.rx with loDur := elapsedOf s.rx }) _ hfull, bitOp_eq]
      exact ⟨rfl, rfl, rfl, eq_true_of_ne_false h2, rfl, rfl, rfl⟩
  · simp only [if_neg h4]
    exact ⟨rfl, ctxReset_contextZero s.rx, rfl⟩

/-- Settles O30: VALID in numbers, and the valid words as the words of the command bytes. -/
theorem validAnswersSyncAndCheck : Obligations.ValidAnswersSyncAndCheck := by
  refine fun w s => ⟨?_, ?_⟩
  · rw [← validWord_eq_decide]
    rfl
  · simp only [validWord_iff_exists_cmdWord, cmdWord_eq_or]

/-- Settles O35: reset by itself; otherwise the clear comes first, and a command's state does not depend on
the one before it. -/
theorem changerMovesOnlyByCommandClearOrReset : Obligations.ChangerMovesOnlyByCommandClearOrReset := by
  refine fun s inp => ⟨tick inp s.fresh, rfl, fun hne => ?_⟩
  cases hrst : inp.rst with
  | true =>
    rw [tick_of_rst _ _ hrst]
    exact .inl ⟨rfl, rfl⟩
  | false =>
    obtain ⟨hmove, hclr⟩ := rxTick_moves inp s.rx
    rw [tick_rx _ _ hrst] at hne ⊢
    rw [tick_said _ _ hrst]
    rcases hmove.stays_or with hstay | ⟨c, hc, hcmd, hpos⟩
    · cases hreq : inp.stateClr with
      | true => exact .inr (.inl ⟨rfl, rfl, List.mem_append_left _ (hclr hreq), by rwa [hreq] at hstay⟩)
      | false =>
        rw [hreq] at hstay
        exact absurd hstay hne
    · exact .inr (.inr ⟨c, List.mem_append_left _ hc, hcmd, hpos⟩)

/-- Settles O22: the fields of CTXRESET. -/
theorem contextResetClearsSixFields : Obligations.ContextResetClearsSixFields := fun _ => rfl

/-- Settles O23: ELAPSED as a number, captured and then cleared. -/
theorem fallCapturesTheMark : Obligations.FallCapturesTheMark := by
  intro s
  rw [← elapsedOf_eq]
  rfl

/-- Settles O24: the fields of each branch; a 0 shifted in is a shift alone. -/
theorem symbolOperationsWriteTheContext : Obligations.SymbolOperationsWriteTheContext := by
  refine fun s => ⟨rfl, rfl, ?_, fun p hp => ?_⟩
  · rw [← shiftIn_false]
    rfl
  · simp only [List.mem_cons, List.not_mem_nil, or_false] at hp
    rcases hp with rfl | rfl | rfl <;> rfl

/-- Settles O27: COMPLETE by its word. -/
theorem completeConsumesTheWord : Obligations.CompleteConsumesTheWord := by
  intro s
  refine congrArg Host.Outcome.next ?_
  rw [State.onRx_eq, State.fresh_rx, completeOp_eq]
  rfl

end Sys2Proof.Machine
end

section
/-! PROOFS. Remote frames (30_encoding.md R73, 42_remote_decoder.md R137): a pulse as the symbol that the next
rising edge reads, and the bits of a frame held one by one until the closing edge completes the word. -/

namespace Sys2Proof.Machine

/-! ### Pulses -/

/-- The labels of COMPLETE among those of the last operation. -/
def State.dones (s : State) : List Label := s.said.filter Label.ofComplete

/-- A label of the transmitter is none of COMPLETE. -/
theorem ofComplete_of_ofTx {l : Label} (h : l.ofTx = true) : l.ofComplete = false := by
  cases l with
  | txStart | txDone => rfl
  | _ => exact absurd h Bool.false_ne_true

/-- TXSTEP completes no word. -/
theorem filter_ofComplete_txStepOp (c : Cfg) (inp : Inputs) (t : Tx) :
    (txStepOp c inp t).2.filter Label.ofComplete = [] :=
  List.filter_eq_nil_iff.2 fun l hl =>
    Bool.eq_false_iff.1 (ofComplete_of_ofTx (txStepOp_labels_ofTx c inp t l hl))

/-- ADVANCE completes no word. -/
theorem filter_ofComplete_advanceOp (r : Rx) : (advanceOp r).2.filter Label.ofComplete = [] := by
  rcases advanceOp_cases r with ⟨-, h⟩ | ⟨-, -, h⟩ | ⟨-, -, h⟩ <;> rw [h] <;> rfl

theorem worldTick_dones_absent (level : Bool) {s : State} (h : s.host = .absent) :
    (worldTick level s).dones =
      s.dones ++ (rxTick { s.restInputs with remoteIn := level } s.rx).2.filter Label.ofComplete := by
  rw [State.dones, worldTick_said_absent level h, List.filter_append, List.filter_append,
    filter_ofComplete_txStepOp, List.append_nil, State.dones]

/-- Ticks without an edge complete no word. -/
theorem holdLevel_quiet_dones {level : Bool} (n : Nat) {s : State} (h : s.host = .absent)
    (hl : level = s.rx.remotePrev) : (holdLevel level n s).dones = s.dones := by
  have ⟨_, _, hdones⟩ : (holdLevel level n s).host = .absent ∧ level = (holdLevel level n s).rx.remotePrev ∧
      (holdLevel level n s).dones = s.dones := by
    refine times_keeps (P := fun t => t.host = .absent ∧ level = t.rx.remotePrev ∧ t.dones = s.dones)
      _ (fun t ⟨ha, hp, hd⟩ => ⟨worldTick_host_absent level ha, ?_, ?_⟩) n s ⟨h, hl, rfl⟩
    · rw [worldTick_rx_absent level ha, rxTick_quiet _ _ rfl hp, (advanceOp_frame _).2, ← hp]
    · rw [worldTick_dones_absent level ha, rxTick_quiet _ _ rfl hp, filter_ofComplete_advanceOp,
        List.append_nil, hd]
  exact hdones

/-- A rising edge is RISE on the time one tick on, and TMRCLR (R127, R200). -/
theorem rxTick_rise (inp : Inputs) (r : Rx) (hc : inp.stateClr = false) (hl : inp.remoteIn = true)
    (hprev : r.remotePrev = false) : rxTick inp r =
      ({ (riseOp (elapsedOf (advanceOp r).1) (advanceOp r).1).1 with cnt := 0, ovf := 0, remotePrev := true },
        (advanceOp r).2 ++ (riseOp (elapsedOf (advanceOp r).1) (advanceOp r).1).2) := by
  rw [rxTick_edge inp r hc (by rw [hl, hprev]; decide), hl, seqRx, seqRx, if_pos rfl, edgeOp_snd]
  simp [samplePrev]

/-- The registers after the `sp` low ticks that follow a mark `m`: the mark captured, and the time, which the
falling edge restarted, one short of `sp` (R118, R126). -/
def Rx.afterPulse (r : Rx) (m sp : Dur) : Rx :=
  { r with hiDur := m, remotePrev := false }.setTime (sp.toNat - 1)

/-- The registers RISE then reads at the next edge, after ADVANCE: the mark, and the whole space (R127). -/
def Rx.atRise (r : Rx) (m sp : Dur) : Rx := { r with hiDur := m, remotePrev := false }.setTime sp.toNat

/-- A duration that the timer counts without a timeout (R113). -/
abbrev FitsTimer (d : Dur) : Prop := 0 < d.toNat ∧ d.toNat < 65024

theorem elapsedOf_setTime (r : Rx) (d : Dur) : elapsedOf (r.setTime d.toNat) = d := by
  rw [elapsedOf_eq, Rx.time_setTime _ d.isLt, BitVec.ofNat_toNat, BitVec.setWidth_eq]

/-- ADVANCE in the tick after a pulse makes its space whole (R111). -/
theorem advanceOp_afterPulse (r : Rx) (m : Dur) {sp : Dur} (h : FitsTimer sp) :
    advanceOp (r.afterPulse m sp) = (r.atRise m sp, []) := by
  obtain ⟨hpos, hlt⟩ := h
  rw [Rx.afterPulse, advanceOp_setTime_count _ (by omega), Nat.sub_add_cancel hpos, Rx.atRise]

/-- The rising edge after a pulse is RISE on the pulse's mark and space (R127). -/
theorem worldTick_rise_afterPulse {s : State} {r : Rx} {m sp : Dur} (h : s.host = .absent)
    (hsp : FitsTimer sp) (hrx : s.rx = r.afterPulse m sp) :
    (worldTick true s).rx = { (riseOp sp (r.atRise m sp)).1 with cnt := 0, ovf := 0, remotePrev := true } ∧
    (worldTick true s).dones = s.dones ++ (riseOp sp (r.atRise m sp)).2.filter Label.ofComplete := by
  have helapsed : elapsedOf (r.atRise m sp) = sp := elapsedOf_setTime _ sp
  rw [worldTick_rx_absent true h, worldTick_dones_absent true h, hrx, rxTick_rise _ _ rfl rfl rfl,
    advanceOp_afterPulse _ _ hsp, helapsed]
  exact ⟨rfl, rfl⟩

/-- A level of `d` ticks from its edge on: the time stands one short of `d` (R117). -/
theorem holdLevel_edge_setTime {level : Bool} {d : Dur} {s : State} (h : s.host = .absent)
    (hl : level ≠ s.rx.remotePrev) (hd : FitsTimer d) :
    (holdLevel level d.toNat s).rx = (worldTick level s).rx.setTime (d.toNat - 1) := by
  obtain ⟨hpos, hlt⟩ := hd
  obtain ⟨n, hn⟩ := Nat.exists_eq_add_of_le' hpos
  obtain ⟨hcnt, hovf, -⟩ := worldTick_edge_timer h hl
  have hzero : (worldTick level s).rx.time = 0 := by rw [Rx.time, hcnt, hovf]; rfl
  rw [hn, holdLevel_edge_rx n h hl, Rx.afterQuiet_of_lt (by omega), hzero, Nat.zero_add, Nat.add_sub_cancel]

/-- A level completes no word after its edge. -/
theorem holdLevel_edge_dones {level : Bool} {d : Dur} {s : State} (h : s.host = .absent)
    (hl : level ≠ s.rx.remotePrev) (hpos : 0 < d.toNat) :
    (holdLevel level d.toNat s).dones = (worldTick level s).dones := by
  obtain ⟨n, hn⟩ := Nat.exists_eq_add_of_le' hpos
  obtain ⟨-, -, hprev⟩ := worldTick_edge_timer h hl
  rw [hn]
  exact holdLevel_quiet_dones n (worldTick_host_absent level h) hprev.symm

/-- What a pulse leaves: its rising edge, then the mark captured and the space counted but for a tick. A
falling edge completes nothing. -/
theorem runPulse_eq {m sp : Dur} {s : State} (h : s.host = .absent) (hl : s.rx.remotePrev = false)
    (hm : FitsTimer m) (hsp : FitsTimer sp) :
    (runPulse m.toNat sp.toNat s).host = .absent ∧
    (runPulse m.toNat sp.toNat s).rx = (worldTick true s).rx.afterPulse m sp ∧
    (runPulse m.toNat sp.toNat s).dones = (worldTick true s).dones := by
  have hedge : true ≠ s.rx.remotePrev := by rw [hl]; decide
  have habs : (holdLevel true m.toNat s).host = .absent := holdLevel_host_absent true _ h
  have hmark : (holdLevel true m.toNat s).rx = (worldTick true s).rx.setTime (m.toNat - 1) :=
    holdLevel_edge_setTime h hedge hm
  have hhigh : (holdLevel true m.toNat s).rx.remotePrev = true := by
    rw [hmark]
    exact (worldTick_edge_timer h hedge).2.2
  have hadv : advanceOp (holdLevel true m.toNat s).rx = ((worldTick true s).rx.setTime m.toNat, []) := by
    obtain ⟨hpos, hlt⟩ := hm
    rw [hmark, advanceOp_setTime_count _ (by omega), Nat.sub_add_cancel hpos]
  have hfall : false ≠ (holdLevel true m.toNat s).rx.remotePrev := by rw [hhigh]; decide
  refine ⟨holdLevel_host_absent false _ habs, ?_, ?_⟩
  · rw [runPulse, holdLevel_edge_setTime habs hfall hsp, (worldTick_fall habs hhigh).1, hadv,
      elapsedOf_setTime]
    rfl
  · rw [runPulse, holdLevel_edge_dones habs hfall hsp.1, worldTick_dones_absent false habs,
      rxTick_fall _ _ rfl rfl hhigh, hadv, ← holdLevel_edge_dones h hedge hm.1]
    exact List.append_nil _

/-! ### A remote frame -/

/-! Every window ends below the timeout (R102, R113). -/

theorem fitsTimer_of_isStartMark {d : Dur} (h : isStartMark d = true) : FitsTimer d := by
  have := isStartMark_iff.1 h
  exact ⟨by omega, by omega⟩

theorem fitsTimer_of_isStartSpace {d : Dur} (h : isStartSpace d = true) : FitsTimer d := by
  have := isStartSpace_iff.1 h
  exact ⟨by omega, by omega⟩

theorem fitsTimer_of_isDataSymbol {p : Dur × Dur} (h : isDataSymbol p = true) :
    FitsTimer p.1 ∧ FitsTimer p.2 := by
  rw [isDataSymbol, Bool.and_eq_true, Bool.or_eq_true, isBitMark_iff, isOneSpace_iff, isZeroSpace_iff] at h
  exact ⟨⟨by omega, by omega⟩, ⟨by omega, by omega⟩⟩

/-- The line is low with no host, and the next rising edge leaves the decoder in a frame with the `n` bits
`w` held, the changer state `st`, and no word completed: the symbol before that edge is still open (R137). -/
structure Holding (n : Nat) (w : CmdWord) (st : BitVec 2) (s : State) : Prop where
  absent : s.host = .absent
  low : s.rx.remotePrev = false
  decoding : (worldTick true s).rx.decoding = true
  nbits : (worldTick true s).rx.nbits = BitVec.ofNat 6 n
  cmdBuf : (worldTick true s).rx.cmdBuf = w
  cstate : (worldTick true s).rx.cstate = st
  dones : (worldTick true s).dones = []

/-- A rising edge in an idle decoder completes nothing and keeps the changer state, timeout or not (R127). -/
theorem worldTick_rise_idle {s : State} (h : s.host = .absent) (hl : s.rx.remotePrev = false)
    (hdec : s.rx.decoding = false) :
    (worldTick true s).rx.cstate = s.rx.cstate ∧ (worldTick true s).dones = s.dones := by
  have hidle : (advanceOp s.rx).1.decoding = false := by
    rcases advanceOp_cases s.rx with ⟨-, e⟩ | ⟨-, -, e⟩ | ⟨-, -, e⟩ <;> rw [e]
    · exact hdec
    · exact hdec
    · rfl
  obtain ⟨hcs, hnone⟩ := riseOp_of_idle (d := elapsedOf (advanceOp s.rx).1) hidle
  rw [worldTick_rx_absent true h, worldTick_dones_absent true h, rxTick_rise _ _ rfl rfl hl,
    List.filter_append, filter_ofComplete_advanceOp, hnone, List.append_nil, List.append_nil]
  exact ⟨hcs.trans (advanceOp_frame s.rx).1, rfl⟩

/-- The start symbol, whatever edge it begins with in an idle decoder, opens a frame of no bits (R128). -/
theorem holding_start {hs ls : Dur} {s : State} (h : s.host = .absent) (hl : s.rx.remotePrev = false)
    (hdec : s.rx.decoding = false) (hdones : s.dones = []) (hm : isStartMark hs = true)
    (hsp : isStartSpace ls = true) : Holding 0 0 s.rx.cstate (runPulse hs.toNat ls.toNat s) := by
  have hls := fitsTimer_of_isStartSpace hsp
  obtain ⟨habs, hrx, hd⟩ := runPulse_eq h hl (fitsTimer_of_isStartMark hm) hls
  obtain ⟨hcs, hkeep⟩ := worldTick_rise_idle h hl hdec
  obtain ⟨hrise, hrd⟩ := worldTick_rise_afterPulse habs hls hrx
  rw [riseOp_of_start (r := (worldTick true s).rx.atRise hs ls) hm hsp] at hrise hrd
  rw [hd, hkeep, hdones] at hrd
  exact ⟨habs, congrArg Rx.remotePrev hrx, congrArg Rx.decoding hrise, congrArg Rx.nbits hrise,
    congrArg Rx.cmdBuf hrise, (congrArg Rx.cstate hrise).trans hcs, hrd⟩

/-- The rising edge after a data symbol takes its bit (R127). -/
theorem Holding.rise {n : Nat} {w : CmdWord} {st : BitVec 2} {s u : State} (h : Holding n w st s)
    {p : Dur × Dur} (hp : isDataSymbol p = true) (hu : u = runPulse p.1.toNat p.2.toNat s) :
    u.host = .absent ∧ u.rx.remotePrev = false ∧ ∃ r : Rx,
      r.decoding = true ∧ r.nbits = BitVec.ofNat 6 n ∧ r.cmdBuf = w ∧ r.cstate = st ∧
      (worldTick true u).rx =
        { (takeBit (isOneSpace p.2) r).1 with cnt := 0, ovf := 0, remotePrev := true } ∧
      (worldTick true u).dones = (takeBit (isOneSpace p.2) r).2.filter Label.ofComplete := by
  subst hu
  obtain ⟨hm, hsp⟩ := fitsTimer_of_isDataSymbol hp
  obtain ⟨habs, hrx, hd⟩ := runPulse_eq h.absent h.low hm hsp
  obtain ⟨hrise, hrd⟩ := worldTick_rise_afterPulse habs hsp hrx
  rw [riseOp_of_dataSymbol (r := (worldTick true s).rx.atRise p.1 p.2) h.decoding hp] at hrise hrd
  rw [hd, h.dones] at hrd
  exact ⟨habs, congrArg Rx.remotePrev hrx, { (worldTick true s).rx.atRise p.1 p.2 with loDur := p.2 },
    h.decoding, h.nbits, h.cmdBuf, h.cstate, hrise, hrd⟩

/-- A data symbol in a frame adds its bit (R131, R132). -/
theorem Holding.symbol {n : Nat} {w : CmdWord} {st : BitVec 2} {s : State} (h : Holding n w st s)
    {p : Dur × Dur} (hp : isDataSymbol p = true) (hn : n < 31) :
    Holding (n + 1) (shiftIn w (isOneSpace p.2)) st (runPulse p.1.toNat p.2.toNat s) := by
  obtain ⟨habs, hlow, r, hdec, hbits, rfl, hst, hrx, hd⟩ := h.rise hp rfl
  have hne : r.nbits ≠ 31 := by
    rw [hbits]
    bv_omega
  rw [takeBit_of_ne _ hne, bitOp_eq] at hrx hd
  refine ⟨habs, hlow, (congrArg Rx.decoding hrx).trans hdec, ?_, congrArg Rx.cmdBuf hrx,
    (congrArg Rx.cstate hrx).trans hst, hd.trans ?_⟩
  · rw [hrx, BitVec.ofNat_add, ← hbits]
    rfl
  · cases isOneSpace p.2 <;> rfl

/-- The data symbols of a frame, as long as they fit, are held in their order (R58, R76). -/
theorem Holding.symbols {st : BitVec 2} (data : List (Dur × Dur)) :
    ∀ {n : Nat} {w : CmdWord} {s : State}, Holding n w st s → (∀ p ∈ data, isDataSymbol p = true) →
      n + data.length ≤ 31 →
      Holding (n + data.length) (data.foldl (fun w p => shiftIn w (isOneSpace p.2)) w) st
        (data.foldl (fun s p => runPulse p.1.toNat p.2.toNat s) s) := by
  induction data with
  | nil => exact fun h _ _ => h
  | cons p ps ih =>
    intro n w s h hdata hlen
    obtain ⟨hp, hps⟩ := List.forall_mem_cons.1 hdata
    rw [List.length_cons, ← Nat.add_assoc] at hlen
    rw [List.length_cons, Nat.add_comm ps.length, ← Nat.add_assoc]
    exact ih (h.symbol hp (by omega)) hps (by omega)

/-- The 32nd data symbol and the rising edge after it complete the word (R134, R137). -/
theorem Holding.complete {w : CmdWord} {st : BitVec 2} {s u : State} (h : Holding 31 w st s)
    {p : Dur × Dur} (hp : isDataSymbol p = true) (hu : u = runPulse p.1.toNat p.2.toNat s) :
    u.host = .absent ∧ u.rx.remotePrev = false ∧ (worldTick true u).rx.contextZero ∧
      (worldTick true u).rx.cstate = afterWord (shiftIn w (isOneSpace p.2)) st ∧
      (worldTick true u).dones = [doneLabel (shiftIn w (isOneSpace p.2))] := by
  obtain ⟨habs, hlow, r, -, hbits, rfl, rfl, hrx, hd⟩ := h.rise hp hu
  rw [takeBit_full _ hbits] at hrx hd
  refine ⟨habs, hlow, ?_, congrArg Rx.cstate hrx, hd.trans ?_⟩
  · rw [hrx]
    exact ctxReset_contextZero r
  · have hbit : (bitLabel (isOneSpace p.2)).ofComplete = false := by cases isOneSpace p.2 <;> rfl
    rw [List.filter_cons_of_neg (by rw [hbit]; decide), List.filter_cons_of_pos (ofComplete_doneLabel _)]
    rfl

/-- Quiet ticks leave an empty decoder empty, over any timeout (R113). -/
theorem Rx.afterQuiet_of_empty (n : Nat) {r : Rx} (h : r.contextZero) :
    (r.afterQuiet n).decoding = false ∧ (r.afterQuiet n).nbits = 0 ∧ (r.afterQuiet n).cmdBuf = 0 := by
  obtain ⟨-, -, -, hdec, hbits, hbuf⟩ := h
  unfold Rx.afterQuiet
  split
  · exact ⟨hdec, hbits, hbuf⟩
  · exact ⟨rfl, rfl, rfl⟩

/-- A mark whose edge leaves the decoder empty: the rest of it is quiet and changes no more (R116). -/
theorem holdLevel_true_of_empty {d : Dur} {u : State} (h : u.host = .absent) (hl : u.rx.remotePrev = false)
    (hzero : (worldTick true u).rx.contextZero) (hd : d ≠ 0) :
    (holdLevel true d.toNat u).dones = (worldTick true u).dones ∧
      (holdLevel true d.toNat u).rx.cstate = (worldTick true u).rx.cstate ∧
      (holdLevel true d.toNat u).rx.decoding = false ∧ (holdLevel true d.toNat u).rx.nbits = 0 ∧
      (holdLevel true d.toNat u).rx.cmdBuf = 0 ∧ (holdLevel true d.toNat u).rx.remotePrev = true := by
  have hedge : true ≠ u.rx.remotePrev := by rw [hl]; decide
  have hpos : 0 < d.toNat := Nat.pos_of_ne_zero fun h0 => hd (BitVec.eq_of_toNat_eq h0)
  refine ⟨holdLevel_edge_dones h hedge hpos, ?_⟩
  obtain ⟨n, hn⟩ := Nat.exists_eq_add_of_le' hpos
  obtain ⟨hcs, hprev⟩ := Rx.afterQuiet_frame (worldTick true u).rx n
  obtain ⟨hdec, hbits, hbuf⟩ := Rx.afterQuiet_of_empty n hzero
  rw [hn, holdLevel_edge_rx n h hedge]
  exact ⟨hcs, hdec, hbits, hbuf, hprev.trans (worldTick_edge_timer h hedge).2.2⟩

/-- A full frame: its start, its first 31 data symbols held, the last one completed by the closing edge
(R73, R137). -/
theorem runFrame_taken {hs ls closing : Dur} {data : List (Dur × Dur)} {s : State}
    (hwf : (Instr.rframe hs ls data closing).wellFormed = true) (habs : s.host = .absent)
    (hlow : s.rx.remotePrev = false) (hdec : s.rx.decoding = false) (hdones : s.dones = [])
    {t : State} (ht : t = runFrame hs ls data closing s) :
    t.dones = [doneLabel (wordOfSymbols data)] ∧
      t.rx.cstate = afterWord (wordOfSymbols data) s.rx.cstate ∧
      t.rx.decoding = false ∧ t.rx.nbits = 0 ∧ t.rx.cmdBuf = 0 ∧ t.rx.remotePrev = true := by
  simp only [Instr.wellFormed, Bool.and_eq_true, decide_eq_true_eq, List.all_eq_true, bne_iff_ne] at hwf
  obtain ⟨⟨⟨⟨hm, hsp⟩, hlen⟩, hdata⟩, hclose⟩ := hwf
  obtain ⟨init, p, hcat⟩ := (List.eq_nil_or_concat data).resolve_left (by rintro rfl; cases hlen)
  rw [List.concat_eq_append] at hcat
  subst hcat
  have hinit : init.length = 31 := by simpa using hlen
  have hheld := (holding_start habs hlow hdec hdones hm hsp).symbols init
    (fun q hq => hdata q (List.mem_append_left _ hq)) (by omega)
  rw [hinit] at hheld
  obtain ⟨hua, hul, hzero, hcs, hd⟩ := hheld.complete (hdata p (by simp)) rfl
  have hend := holdLevel_true_of_empty hua hul hzero hclose
  rw [hd, hcs] at hend
  rw [ht, runFrame, wordOfSymbols, List.foldl_append, List.foldl_append]
  exact hend

/-! ### The obligation -/

/-- Settles O31: the frame taken, from a state that has said nothing yet. -/
theorem remoteFrameIsTakenAsItsWord : Obligations.RemoteFrameIsTakenAsItsWord :=
  fun s _ _ _ _ hwf habs hlow hdec => ⟨_, rfl, runFrame_taken (s := s.fresh) hwf habs hlow hdec rfl rfl⟩

end Sys2Proof.Machine
end

section
/-! PROOFS. The changer state (43_changer_state.md R150 to R152): a clear is taken before everything else of its
tick, so the tick goes on as it would have from INIT. -/

namespace Sys2Proof.Machine

/-! ### A tick with a clear -/

/-- With a clear, the timer and decoder half of a tick runs as without it from INIT, the label of the clear
first (R152, R200). -/
theorem rxTick_clear {inp : Inputs} (r : Rx) (hc : inp.stateClr = true) :
    rxTick inp r = ((rxTick { inp with stateClr := false } { r with cstate := 0 }).1,
      .stateClr :: (rxTick { inp with stateClr := false } { r with cstate := 0 }).2) := by
  rw [rxTick, hc]
  rfl

/-- The transmitter does not see a clear (R167). -/
theorem txStepOp_stateClr (c : Cfg) (inp : Inputs) (b : Bool) :
    txStepOp c { inp with stateClr := b } = txStepOp c inp := rfl

/-! ### The obligations -/

/-- Settles O34: the timer and decoder half by its own law, the transmitter unaware of the clear. -/
theorem clearComesBeforeTheCommand : Obligations.ClearComesBeforeTheCommand := by
  refine fun s => ⟨rfl, fun inp hrst hclr => ?_⟩
  have hrst' : { inp with stateClr := false }.rst = false := hrst
  refine ⟨_, _, rfl, rfl, ?_, ?_, ?_⟩
  · rw [tick_rx _ _ hrst, tick_rx _ _ hrst', State.fresh_rx, rxTick_clear _ hclr]
    rfl
  · rw [tick_tx _ _ hrst, tick_tx _ _ hrst', txStepOp_stateClr]
    rfl
  · rw [tick_said _ _ hrst, tick_said _ _ hrst', State.fresh_rx, rxTick_clear _ hclr, txStepOp_stateClr]
    rfl

/-- Settles O33: COMMAND writes the changer state of its table, and gives no label. -/
theorem commandFollowsTheTransitionTable : Obligations.CommandFollowsTheTransitionTable := by
  refine fun s c => congrArg Host.Outcome.next ?_
  rw [State.onRx_eq, State.fresh_rx, command_eq]
  rfl

end Sys2Proof.Machine
end

section
/-! PROOFS. The operations of the sequencer one by one (44_frame_transmitter.md R165 to R169): a request taken
and a request refused, and the arm of each phase as the operation of its code. -/

namespace Sys2Proof.Machine

/-! ### Requests -/

/-- A request in IDLE with a select other than 3 is taken (R165). -/
theorem txRequest_accepted {sel : Sel} {t : Tx} (hp : t.phase = .idle) (hsel : sel ≠ 3) :
    txRequest true sel t = (enterCell 0 7 { t with pay := payloadOf sel }, [.txStart sel]) := by
  rw [txRequest_eq, if_pos ⟨rfl, hp, hsel⟩]

/-- Anything else is refused: nothing asserted, a frame in flight, or select 3 (R169). -/
theorem txRequest_refused {start : Bool} {sel : Sel} {t : Tx}
    (h : start = false ∨ t.phase ≠ .idle ∨ sel = 3) : txRequest start sel t = (t, []) := by
  rw [txRequest_eq, if_neg]
  rintro ⟨hstart, hp, hsel⟩
  rcases h with hno | hbusy | hres
  · rw [hno] at hstart
    cases hstart
  · exact hbusy hp
  · exact hsel hres

/-- To TXSTEP a refused request is no request (R169). -/
theorem txStepOp_refused (c : Cfg) (inp : Inputs) {t : Tx} (h : t.busy = true ∨ inp.txSel = 3) :
    txStepOp c inp t = txStepOp c { inp with txStart := false } t := by
  by_cases hp : t.phase = .idle
  · have hsel : inp.txSel = 3 := h.resolve_left fun hb => (Tx.busy_iff t).1 hb hp
    rw [txStepOp_idle c _ t hp, txStepOp_idle c _ t hp, txRequest_refused (.inr (.inr hsel)),
      txRequest_refused (.inl rfl)]
  · exact txStepOp_busy c _ _ t ((Tx.busy_iff t).2 hp)

/-- A refused request makes no difference to a tick (R169). -/
theorem tick_refused (inp : Inputs) {s : State} (h : s.tx.busy = true ∨ inp.txSel = 3) :
    (tick inp s).rx = (tick { inp with txStart := false } s).rx ∧
    (tick inp s).tx = (tick { inp with txStart := false } s).tx ∧
    (tick inp s).labels = (tick { inp with txStart := false } s).labels := by
  simp only [tick]
  split
  · exact ⟨rfl, rfl, rfl⟩
  · rw [runTick_tx, runTick_labels, runTick_labels, txStepOp_refused s.cfg inp h]
    exact ⟨rfl, rfl, rfl⟩

/-! ### The arm of a phase -/

/-- An operation that answers `(t, ls)` on the transmitter at hand writes just that. -/
theorem State.fresh_onTx {g : TxOp} {s : State} {t : Tx} {ls : List Label} (h : g s.tx = (t, ls)) :
    s.fresh.onTx g = { s.fresh with tx := t, labels := ls.map (Event.mk s.now) } := by
  rw [State.onTx_eq, State.fresh_tx, h]
  rfl

/-- The code of a phase names its operation (R83, R166). -/
theorem exec_decodePhase (p : TxPhase) (s : State) : exec (decodePhase p.code) s = .next (inPhase p s) := by
  cases p <;> rfl

/-- In its own phase a phase operation is TXSTEP (R166, R167). -/
theorem inPhase_self {p : TxPhase} {s : State} (h : s.tx.phase = p) :
    inPhase p s = s.fresh.onTx (txStepOp s.cfg s.inp) := by
  subst h
  rw [inPhase, State.onTx_eq, State.onTx_eq]
  simp only [State.fresh_tx, if_pos, txStepOp]

/-- The operation of a timed phase above its last tick counts (R167). -/
theorem inPhase_count {p : TxPhase} {s : State} (h : s.tx.phase = p) (hp : p ≠ .idle) (hd : 1 < s.tx.dly) :
    inPhase p s = { s.fresh with tx := { s.tx with dly := s.tx.dly - 1 } } := by
  have hcount : txStepOp s.cfg s.inp s.tx = ({ s.tx with dly := s.tx.dly - 1 }, []) := by
    rw [txStepOp_timed _ _ _ (by rwa [h]), countDown_count _ _ hd]
  rw [inPhase_self h]
  exact State.fresh_onTx hcount

/-- The operation of a timed phase in its last tick hands over (R167). -/
theorem inPhase_last {p : TxPhase} {s : State} {t : Tx} {ls : List Label} (h : s.tx.phase = p)
    (hp : p ≠ .idle) (hd : s.tx.dly = 1) (ht : handOver s.cfg p s.tx = (t, ls)) :
    inPhase p s = { s.fresh with tx := t, labels := ls.map (Event.mk s.now) } := by
  rw [inPhase_self h]
  refine State.fresh_onTx ?_
  rw [txStepOp_timed _ _ _ (by rwa [h]), countDown_last _ _ (by rw [hd]; decide), h, ht]

/-- The last tick of CLK_LO: the next lower bit, or the tail of the byte (R167). -/
theorem handOver_clkLo (c : Cfg) (t : Tx) : handOver c .clkLo t =
    (if t.bit ≠ 0 then
        { t with bit := t.bit - 1, clockOut := true, phase := .clkHi, dly := 5,
                 dataOut := t.pay.getLsbD (8 * (7 - t.byte.toNat) + (t.bit.toNat - 1)) }
      else if t.byte = 0 ∨ t.byte = 7 then { t with phase := .stbSetup, dly := 100 }
      else { t with phase := .byteGap, dly := c.tByteGap }, []) := by
  rw [handOver, endClkLo]
  by_cases hb : t.bit = 0
  · rw [if_neg (by rw [hb]; decide), if_neg (Decidable.not_not.2 hb)]
    split <;> rfl
  · have hpos : 0 < t.bit := by bv_omega
    have hpred : (t.bit - 1).toNat = t.bit.toNat - 1 := by bv_omega
    rw [if_pos hpos, if_pos hb, enterCell, payByte_bit, hpred]
    rfl

/-- The last tick of INTERBYTE: the first cell of the next byte (R167). -/
theorem handOver_interbyte (c : Cfg) (t : Tx) : handOver c .interbyte t =
    ({ t with byte := t.byte + 1, bit := 7, clockOut := true, phase := .clkHi, dly := 5,
              dataOut := t.pay.getLsbD (8 * (7 - (t.byte + 1).toNat) + 7) }, []) := by
  rw [handOver, endInterbyte, enterCell, payByte_bit]
  rfl

/-! ### The obligations -/

/-- Settles O39: the row has no effect, TXSTART is refused, and to TXSTEP a refused request is none. -/
theorem refusedRequestChangesNothing : Obligations.RefusedRequestChangesNothing := by
  refine fun s sel => ⟨rfl, fun h => congrArg Host.Outcome.next ?_,
    fun inp h => ⟨_, _, rfl, rfl, tick_refused inp (s := s.fresh) h⟩⟩
  exact State.fresh_onTx (txRequest_refused (.inr (h.imp_left (Tx.busy_iff s.tx).1)))

/-- Settles O38: the request taken, its first bit read from the payload. -/
theorem startLatchesThePayload : Obligations.StartLatchesThePayload := by
  refine fun s sel hp hsel => congrArg Host.Outcome.next ?_
  rw [State.fresh_onTx (txRequest_accepted hp hsel), enterCell, payByte_bit]
  rfl

/-- Settles O40: TXSTEP and the operation of the phase's code run the same arm. -/
theorem txStepRunsTheArmOfItsPhase : Obligations.TxStepRunsTheArmOfItsPhase :=
  fun s => ⟨_, rfl, (exec_decodePhase s.tx.phase s).trans (congrArg _ (inPhase_self rfl)), rfl⟩

/-- Settles O41: every timed phase counts alike. -/
theorem timedPhaseCountsDown : Obligations.TimedPhaseCountsDown := by
  intro s hd p hp
  obtain ⟨hcode, htimed⟩ : p.1 = decodePhase p.2.code ∧ p.2 ≠ .idle := by
    revert p
    decide
  intro hphase
  rw [hcode, exec_decodePhase, inPhase_count hphase htimed hd]

/-- Settles O42: each phase's hand-over, the payload bit read where a cell begins. -/
theorem phaseHandsOverInItsLastTick : Obligations.PhaseHandsOverInItsLastTick := by
  refine fun s hd => ⟨fun h => ?_, fun h => ?_, fun h => ?_, fun h => ?_, fun h => ?_, fun h => ?_,
    fun h => ?_⟩ <;> refine congrArg Host.Outcome.next ?_
  · exact inPhase_last h (by decide) hd rfl
  · exact inPhase_last h (by decide) hd (handOver_clkLo s.cfg s.tx)
  · exact inPhase_last h (by decide) hd rfl
  · exact inPhase_last h (by decide) hd rfl
  · by_cases hbyte : s.tx.byte = 7
    · rw [if_pos hbyte]
      exact inPhase_last h (by decide) hd (if_pos hbyte)
    · rw [if_neg hbyte]
      exact inPhase_last h (by decide) hd (if_neg hbyte)
  · exact inPhase_last h (by decide) hd rfl
  · exact inPhase_last h (by decide) hd (handOver_interbyte s.cfg s.tx)

/-- Settles O43: the IDLE arm is the request, taken or refused. -/
theorem idlePhaseWaitsForARequest : Obligations.IdlePhaseWaitsForARequest := by
  intro s hp
  have hidle : inPhase .idle s = s.fresh.onTx (txRequest s.inp.txStart s.inp.txSel) := by
    rw [inPhase_self hp, State.onTx_eq, State.onTx_eq, State.fresh_tx, txStepOp_idle _ _ _ hp]
  refine ⟨fun hstart hsel => ⟨s.fresh.onTx (txRequest true s.inp.txSel), ?_, rfl, ?_⟩,
    fun h => congrArg Host.Outcome.next (hidle.trans ?_)⟩
  · rw [← hstart, ← hidle]
    rfl
  · rw [State.onTx_tx, State.fresh_tx, txRequest_accepted hp hsel]
    rfl
  · exact State.fresh_onTx (txRequest_refused (h.imp_right .inr))

end Sys2Proof.Machine
end

section
/-! PROOFS. Ticks of STEP in which nothing is asserted and the line is held (30_encoding.md R86), whatever stands
beside the block: the two halves in closed form, and what the transmitter labels in them. -/

namespace Sys2Proof.Machine

/-! ### Labels of the transmitter -/

/-- The labels of the transmitter among those of the last operation, with their ticks (R211). -/
def State.txEvents (s : State) : List Event := s.labels.filter fun e => e.label.ofTx

theorem State.said_filter_ofTx (s : State) : s.said.filter Label.ofTx = s.txEvents.map fun e => e.label := by
  rw [State.said, List.filter_map]
  rfl

/-- A bit taken is no label of the transmitter, and neither is the word it may complete. -/
theorem filter_ofTx_takeBit (b : Bool) (r : Rx) : (takeBit b r).2.filter Label.ofTx = [] := by
  have hbit : (bitLabel b).ofTx = false := by cases b <;> rfl
  have hdone (w : CmdWord) : (doneLabel w).ofTx = false := by
    unfold doneLabel
    split <;> rfl
  by_cases h : r.nbits = 31
  · simp [takeBit_full b h, hbit, hdone]
  · simp [takeBit_of_ne b h, bitOp_eq, hbit]

theorem filter_ofTx_riseOp (d : Dur) {r : Rx} : (riseOp d r).2.filter Label.ofTx = [] := by
  rw [riseOp_eq]
  split
  · rfl
  · split
    · rfl
    · split
      · rfl
      · split
        · exact filter_ofTx_takeBit _ _
        · rfl

/-- The timer and decoder half labels nothing of the transmitter (R202). -/
theorem filter_ofTx_rxTick (inp : Inputs) (r : Rx) : (rxTick inp r).2.filter Label.ofTx = [] := by
  have hclr (r : Rx) : (whenRx inp.stateClr stateClrOp r).2.filter Label.ofTx = [] := by
    cases inp.stateClr <;> rfl
  have hadv (r : Rx) : (advanceOp r).2.filter Label.ofTx = [] := by
    rcases advanceOp_cases r with ⟨-, h⟩ | ⟨-, -, h⟩ | ⟨-, -, h⟩ <;> rw [h] <;> rfl
  have hedge (r : Rx) : (edgeTick inp.remoteIn r).2.filter Label.ofTx = [] := by
    rcases edgeTick_cases inp.remoteIn r with ⟨-, h⟩ | ⟨-, -, h⟩ | ⟨-, -, h⟩ <;> rw [h]
    · rfl
    · exact filter_ofTx_riseOp _
    · rfl
  simp only [rxTick, seqRx_snd, List.filter_append, hclr, hadv, hedge]
  rfl

/-- In a tick the transmitter's labels are those of its own operation, stamped with the tick (R203). -/
theorem runTick_txEvents (g : TxOp) (inp : Inputs) (s : State) : (runTick g inp s).txEvents =
    s.txEvents ++ ((g s.tx).2.filter Label.ofTx).map (Event.mk (s.now + 1)) := by
  rw [State.txEvents, runTick_labels, List.filter_append, List.filter_map]
  show _ ++ List.map _ (List.filter Label.ofTx _) = _
  rw [List.filter_append, filter_ofTx_rxTick, List.nil_append]
  rfl

/-! ### The sequencer with no request -/

/-- With nothing asserted TXSTEP reads no input, and its labels do not either. -/
theorem txStepOp_eq_none (c : Cfg) {inp : Inputs} (t : Tx) (h : inp.txStart = false) :
    txStepOp c inp t = txStepOp c Inputs.none t := by
  by_cases hp : t.phase = .idle
  · rw [txStepOp_idle c _ t hp, txStepOp_idle c _ t hp, txRequest_refused (.inl h)]
    exact (txRequest_refused (.inl rfl)).symm
  · exact txStepOp_busy c _ _ t ((Tx.busy_iff t).2 hp)

/-- The next `n` TXSTEPs that no request meets give no label. -/
def TxSilent (c : Cfg) (n : Nat) (t : Tx) : Prop :=
  ∀ k < n, (txStepOp c Inputs.none (txQuietRun c k t)).2 = []

theorem TxSilent.add {c : Cfg} {m n : Nat} {t : Tx} (hm : TxSilent c m t)
    (hn : TxSilent c n (txQuietRun c m t)) : TxSilent c (m + n) t := by
  intro k hk
  by_cases hlt : k < m
  · exact hm k hlt
  · obtain ⟨l, rfl⟩ := Nat.exists_eq_add_of_le (Nat.not_lt.1 hlt)
    rw [txQuietRun_add]
    exact hn l (by omega)

/-- A timed phase gives no label before its last tick (R167). -/
theorem txSilent_counts (c : Cfg) {t : Tx} (hp : t.phase ≠ .idle) {n : Nat} (hn : n < t.dly.toNat) :
    TxSilent c n t := by
  intro k hk
  have hlt := t.dly.isLt
  have hcount : 1 < t.dly - BitVec.ofNat 16 k := by bv_omega
  rw [txQuietRun_counts c hp (by omega), txStepOp_timed _ _ _ (by exact hp), countDown_count _ _ hcount]

/-- A timed phase whose hand-over gives no label gives none at all (R167). -/
theorem txSilent_phase (c : Cfg) {t : Tx} (hp : t.phase ≠ .idle) (hpos : 0 < t.dly.toNat)
    (hlast : (handOver c t.phase t).2 = []) : TxSilent c t.dly.toNat t := by
  obtain ⟨n, hn⟩ := Nat.exists_eq_add_of_le' hpos
  have hcounts : n < t.dly.toNat := by omega
  rw [hn]
  refine (txSilent_counts c hp hcounts).add fun k hk => ?_
  obtain rfl : k = 0 := by omega
  have hone : ¬1 < t.dly - BitVec.ofNat 16 n := by bv_omega
  rw [txQuietRun_zero, txQuietRun_counts c hp hcounts, txStepOp_timed _ _ _ (by exact hp),
    countDown_last _ _ hone, handOver_dly c t _ hp, hlast]

/-! ### A level with nothing asserted -/

/-- One tick of STEP with the line at `level` and nothing asserted (R86). -/
def levelTick (level : Bool) (s : State) : State := tick { s.restInputs with remoteIn := level } s

/-- `n` such ticks. -/
def levelRun (level : Bool) (n : Nat) (s : State) : State := times (levelTick level) n s

@[simp] theorem levelTick_cfg (level : Bool) (s : State) : (levelTick level s).cfg = s.cfg := tick_cfg s _
@[simp] theorem levelTick_host (level : Bool) (s : State) : (levelTick level s).host = s.host := tick_host s _

theorem levelTick_now (level : Bool) (s : State) : (levelTick level s).now = s.now + 1 := tick_now s _ rfl

/-- Of the inputs only the level of the line reaches the timer and decoder half (R202). -/
theorem levelTick_rx (level : Bool) (s : State) :
    (levelTick level s).rx = (rxTick { Inputs.none with remoteIn := level } s.rx).1 := tick_rx s _ rfl

theorem levelTick_tx (level : Bool) (s : State) : (levelTick level s).tx = txQuiet s.cfg s.tx := by
  rw [levelTick, tick_tx s _ rfl, txStepOp_of_no_start _ _ rfl]

theorem levelTick_txEvents (level : Bool) (s : State) : (levelTick level s).txEvents =
    s.txEvents ++ (txStepOp s.cfg Inputs.none s.tx).2.map (Event.mk (s.now + 1)) := by
  rw [levelTick, tick_of_no_rst _ _ rfl, runTick_txEvents, txStepOp_eq_none _ _ rfl,
    List.filter_eq_self.2 (txStepOp_labels_ofTx _ _ _)]

theorem levelRun_zero (level : Bool) (s : State) : levelRun level 0 s = s := rfl

theorem levelRun_succ (level : Bool) (n : Nat) (s : State) :
    levelRun level (n + 1) s = levelTick level (levelRun level n s) := times_add (levelTick level) n 1 s

@[simp] theorem levelRun_cfg (level : Bool) (n : Nat) (s : State) : (levelRun level n s).cfg = s.cfg :=
  times_keeps (P := fun u => u.cfg = s.cfg) _ (fun u h => (levelTick_cfg level u).trans h) n s rfl

theorem levelRun_now (level : Bool) (n : Nat) (s : State) : (levelRun level n s).now = s.now + n := by
  induction n with
  | zero => rfl
  | succ n ih => rw [levelRun_succ, levelTick_now, ih, Nat.add_assoc]

theorem levelRun_tx (level : Bool) (n : Nat) (s : State) :
    (levelRun level n s).tx = txQuietRun s.cfg n s.tx := by
  induction n with
  | zero => rfl
  | succ n ih => rw [levelRun_succ, levelTick_tx, ih, levelRun_cfg, txQuietRun_succ]

theorem levelRun_txEvents (level : Bool) (n : Nat) (s : State) (h : TxSilent s.cfg n s.tx) :
    (levelRun level n s).txEvents = s.txEvents := by
  induction n with
  | zero => rfl
  | succ n ih =>
    rw [levelRun_succ, levelTick_txEvents, levelRun_cfg, levelRun_tx, h n (Nat.lt_succ_self n),
      ih fun k hk => h k (Nat.lt_succ_of_lt hk)]
    exact List.append_nil _

/-- With no host a level item is its ticks with nothing asserted (R86). -/
theorem holdLevel_eq_levelRun (level : Bool) (n : Nat) {s : State} (h : s.host = .absent) :
    holdLevel level n s = levelRun level n s := by
  induction n with
  | zero => rfl
  | succ n ih =>
    have habs := holdLevel_host_absent level n h
    rw [holdLevel_succ, worldTick_absent level _ habs, ih, levelRun_succ]
    rfl

/-- The ticks of a call after its first keep the line and assert nothing (R86). -/
theorem callTicks_eq_levelRun (p : Payload) (i j : BitVec 3) (n : Nat) (s : State) :
    callTicks p i j n s = levelRun s.inp.remoteIn n (callTicks p i j 0 s) := by
  induction n with
  | zero => rfl
  | succ n ih =>
    have hrest := callTicks_restInputs p i j n s
    rw [callTicks_succ, levelRun_succ, ← ih, plainTick, levelTick, hrest]
    rfl

/-! ### Two states of one block -/

/-- The registers, the configuration and the tick number agree: what two runs from here show of the block does
not depend on the rest. -/
structure SameBlock (s u : State) : Prop where
  rx : s.rx = u.rx
  tx : s.tx = u.tx
  cfg : s.cfg = u.cfg
  now : s.now = u.now

theorem SameBlock.levelTick {s u : State} (h : SameBlock s u) (level : Bool) :
    SameBlock (levelTick level s) (levelTick level u) where
  rx := by rw [levelTick_rx, levelTick_rx, h.rx]
  tx := by rw [levelTick_tx, levelTick_tx, h.tx, h.cfg]
  cfg := by rw [levelTick_cfg, levelTick_cfg, h.cfg]
  now := by rw [levelTick_now, levelTick_now, h.now]

theorem SameBlock.levelRun {s u : State} (h : SameBlock s u) (level : Bool) (n : Nat) :
    SameBlock (levelRun level n s) (levelRun level n u) := by
  induction n with
  | zero => exact h
  | succ n ih =>
    rw [levelRun_succ, levelRun_succ]
    exact ih.levelTick level

/-! ### The obligation -/

/-- Settles O44: a held level moves only the counter of a phase before its last tick. -/
theorem phaseLastsItsDelay : Obligations.PhaseLastsItsDelay := by
  intro s n level habs hp hn
  have hrun : holdLevel level n s.fresh = levelRun level n s.fresh := holdLevel_eq_levelRun level n habs
  have hsilent : (levelRun level n s.fresh).txEvents = [] :=
    levelRun_txEvents level n s.fresh (txSilent_counts s.cfg hp hn)
  refine ⟨_, exec_level level n s, ?_, ?_⟩
  · rw [hrun, levelRun_tx]
    exact txQuietRun_counts s.cfg hp hn
  · rw [hrun, State.said_filter_ofTx, hsilent]
    rfl

end Sys2Proof.Machine
end

section
/-! PROOFS. The sequencer and the waveforms (44_frame_transmitter.md R160 to R164, R167, R170): phase by phase it
follows the segments of a waveform, cell by cell and byte by byte up to the frame. -/

namespace Sys2Proof.Machine

/-! ### A phase and its segment -/

/-- The lines as the phase gives them: CLOCK high in CLK_HI alone, STROBE low in STB_LOW alone (R46 (g)). -/
def Tx.phaseLines (t : Tx) : Lines := ⟨t.dataOut, t.phase == .clkHi, t.phase != .stbLow⟩

theorem Tx.lines_eq_phaseLines {t : Tx} (h : t.Inv) : t.lines = t.phaseLines := by
  obtain ⟨-, -, hstrobe, hclock⟩ := h
  have hc : t.clockOut = (t.phase == .clkHi) := by
    rw [Bool.eq_iff_iff, beq_iff_eq]
    exact hclock
  have hs : t.strobeOut = (t.phase != .stbLow) := by
    rw [Bool.eq_iff_iff, bne_iff_ne, ← Bool.not_eq_false, Decidable.not_iff_not]
    exact hstrobe
  rw [Tx.lines, Tx.phaseLines, hc, hs]

/-- The timed phase just entered in `t` is the segment `g` of a waveform, DATA having been at `d` before it. -/
structure IsSegment (d : Bool) (g : Seg) (t : Tx) : Prop where
  timed : t.phase ≠ .idle
  ticks : g.ticks = t.dly.toNat
  pos : 0 < t.dly.toNat
  lines : (⟨g.data.getD d, g.clock, g.strobe⟩ : Lines) = t.phaseLines

/-- The segment's levels, then those of the rest (R160). -/
theorem IsSegment.waveLines_cons {d : Bool} {g : Seg} {t : Tx} (h : IsSegment d g t) (gs : List Seg) :
    waveLines d (g :: gs) = List.replicate t.dly.toNat t.phaseLines ++ waveLines t.dataOut gs := by
  have hdata : g.data.getD d = t.dataOut := congrArg Lines.data h.lines
  rw [waveLines, h.lines, h.ticks, hdata]

/-- Before its counter has run out the phase shows its lines and is busy (R167). -/
theorem txQuietRun_in_phase (c : Cfg) {t : Tx} (hp : t.phase ≠ .idle) {k : Nat} (hk : k < t.dly.toNat) :
    (txQuietRun c k t).busy = true ∧ (txQuietRun c k t).phaseLines = t.phaseLines := by
  rw [txQuietRun_counts c hp hk]
  exact ⟨(Tx.busy_iff _).2 hp, rfl⟩

/-- In the ticks of its first segment a waveform shows that phase (R160). -/
theorem IsSegment.tick (c : Cfg) {d : Bool} {g : Seg} {t : Tx} (h : IsSegment d g t) (gs : List Seg) {k : Nat}
    (hk : k < t.dly.toNat) : (txQuietRun c k t).busy = true ∧
      (waveLines d (g :: gs))[k]? = some (txQuietRun c k t).phaseLines := by
  obtain ⟨hbusy, hlines⟩ := txQuietRun_in_phase c h.timed hk
  refine ⟨hbusy, ?_⟩
  rw [h.waveLines_cons, hlines, List.getElem?_append_left (by simpa using hk)]
  simp [hk]

/-- When its counter has run out the phase has handed over (R167). -/
theorem txQuietRun_phase_end (c : Cfg) {t : Tx} (hp : t.phase ≠ .idle) (hpos : 0 < t.dly.toNat) :
    txQuietRun c t.dly.toNat t = (handOver c t.phase t).1 := by
  obtain ⟨n, hn⟩ := Nat.exists_eq_add_of_le' hpos
  rw [hn]
  exact txQuietRun_phase c hp hn.symm

/-! ### Phases and the segments of a waveform -/

/-- From `t`, DATA having been at `d` before, the phases of the sequencer are the segments of a waveform one
after another, without a label; the last of them is entered in `u`. -/
inductive Follows (c : Cfg) : Bool → Tx → List Seg → Tx → Prop
  | last {d : Bool} {t : Tx} {g : Seg} : IsSegment d g t → Follows c d t [g] t
  | next {d : Bool} {t t' u : Tx} {g : Seg} {gs : List Seg} : IsSegment d g t →
      handOver c t.phase t = (t', []) → Follows c t.dataOut t' gs u → Follows c d t (g :: gs) u

/-- One waveform after another, where the last phase of the first hands over to the first of the second. -/
theorem Follows.append {c : Cfg} {d : Bool} {t u t' u' : Tx} {v w : List Seg} (hv : Follows c d t v u)
    (hu : handOver c u.phase u = (t', [])) (hw : Follows c u.dataOut t' w u') :
    Follows c d t (v ++ w) u' := by
  induction hv with
  | last hg => exact .next hg hu hw
  | next hg ht _ ih => exact .next hg ht (ih hu hw)

theorem waveTicks_cons (g : Seg) (gs : List Seg) : waveTicks (g :: gs) = g.ticks + waveTicks gs := by
  simp [waveTicks]

theorem Follows.waveTicks_pos {c : Cfg} {d : Bool} {t u : Tx} {w : List Seg} (h : Follows c d t w u) :
    0 < waveTicks w := by
  cases h with
  | last hg | next hg =>
    rw [waveTicks_cons, hg.ticks]
    exact Nat.add_pos_left hg.pos _

/-- In each tick of the waveform the sequencer is busy and its phase gives the levels at that offset. -/
theorem Follows.tick {c : Cfg} {d : Bool} {t u : Tx} {w : List Seg} (h : Follows c d t w u) :
    ∀ k < waveTicks w, (txQuietRun c k t).busy = true ∧
      (waveLines d w)[k]? = some (txQuietRun c k t).phaseLines := by
  induction h with
  | last hg =>
    intro k hk
    rw [waveTicks_cons, hg.ticks] at hk
    exact hg.tick c [] hk
  | @next d t t' u g gs hg ht _ ih =>
    intro k hk
    rw [waveTicks_cons, hg.ticks] at hk
    by_cases hlt : k < t.dly.toNat
    · exact hg.tick c gs hlt
    · obtain ⟨l, rfl⟩ := Nat.exists_eq_add_of_le (Nat.not_lt.1 hlt)
      rw [txQuietRun_add, txQuietRun_phase_end c hg.timed hg.pos, ht, hg.waveLines_cons,
        List.getElem?_append_right (by simp), List.length_replicate, Nat.add_sub_cancel_left]
      exact ih l (by omega)

/-- In the last tick of the waveform its last phase has one tick left. -/
theorem Follows.run_last {c : Cfg} {d : Bool} {t u : Tx} {w : List Seg} (h : Follows c d t w u) :
    txQuietRun c (waveTicks w - 1) t = { u with dly := 1 } := by
  induction h with
  | @last d t g hg =>
    have hpos := hg.pos
    have hone : t.dly - BitVec.ofNat 16 (t.dly.toNat - 1) = 1 := by bv_omega
    rw [show waveTicks [g] = t.dly.toNat from hg.ticks, txQuietRun_counts c hg.timed (by omega), hone]
  | @next d t t' u g gs hg ht hgs ih =>
    rw [waveTicks_cons, hg.ticks, Nat.add_sub_assoc hgs.waveTicks_pos, txQuietRun_add,
      txQuietRun_phase_end c hg.timed hg.pos, ht]
    exact ih

/-- No label is given before the last tick of the waveform. -/
theorem Follows.silent {c : Cfg} {d : Bool} {t u : Tx} {w : List Seg} (h : Follows c d t w u) :
    TxSilent c (waveTicks w - 1) t := by
  induction h with
  | @last d t g hg =>
    have hpos := hg.pos
    rw [show waveTicks [g] = t.dly.toNat from hg.ticks]
    exact txSilent_counts c hg.timed (by omega)
  | @next d t t' u g gs hg ht hgs ih =>
    rw [waveTicks_cons, hg.ticks, Nat.add_sub_assoc hgs.waveTicks_pos]
    refine (txSilent_phase c hg.timed hg.pos (by rw [ht])).add ?_
    rw [txQuietRun_phase_end c hg.timed hg.pos, ht]
    exact ih

/-! ### Cells, bytes and the frame -/

/-- The sequencer sending bit `j` of byte `i` of `p`: DATA at that bit, CLOCK as its phase has it. -/
def sending (p : Payload) (i j : BitVec 3) (ph : TxPhase) (dly : BitVec 16) (strobe : Bool) : Tx :=
  { phase := ph, dly := dly, byte := i, bit := j, pay := p, dataOut := payBit p i j
    clockOut := ph == .clkHi, strobeOut := strobe }

theorem enterCell_eq_sending (i j : BitVec 3) (t : Tx) :
    enterCell i j t = sending t.pay i j .clkHi 5 t.strobeOut := rfl

theorem restAfter_eq_sending (p : Payload) (i : BitVec 3) : restAfter p i = sending p i 0 .idle 0 true := rfl

/-- A phase of rest, DATA held at the last bit, is a segment of rest (R162 to R164). -/
theorem isSegment_rest (p : Payload) (i : BitVec 3) {ph : TxPhase} {n : BitVec 16} (strobe : Bool)
    (hph : ph ≠ .idle ∧ ph ≠ .clkHi ∧ ph ≠ .stbLow) (hn : n ≠ 0) :
    IsSegment (payBit p i 0) (waveRest n.toNat) (sending p i 0 ph n strobe) := by
  obtain ⟨hidle, hhigh, hlow⟩ := hph
  have hpos : 0 < n.toNat := by bv_omega
  refine ⟨hidle, rfl, hpos, ?_⟩
  simp [waveRest, sending, Tx.phaseLines, hhigh, hlow]

/-- A cell is CLK_HI and CLK_LO (R161). -/
theorem follows_cell (c : Cfg) (d : Bool) (p : Payload) (i j : BitVec 3) (strobe : Bool) :
    Follows c d (sending p i j .clkHi 5 strobe) (waveBit (payBit p i j)) (sending p i j .clkLo 11 strobe) :=
  .next ⟨TxPhase.noConfusion, rfl, Nat.zero_lt_succ _, rfl⟩ rfl <|
    .last ⟨TxPhase.noConfusion, rfl, Nat.zero_lt_succ _, rfl⟩

/-- After the cell of a higher bit the cell of the next (R167). -/
theorem Follows.nextCell {c : Cfg} {d : Bool} {p : Payload} {i : BitVec 3} {j : BitVec 3} {strobe : Bool}
    {t : Tx} {v : List Seg} (h : Follows c d t v (sending p i j .clkLo 11 strobe)) (hj : 0 < j) :
    Follows c d t (v ++ waveBit (payBit p i (j - 1))) (sending p i (j - 1) .clkLo 11 strobe) := by
  have hnext : handOver c .clkLo (sending p i j .clkLo 11 strobe) =
      (sending p i (j - 1) .clkHi 5 strobe, []) := by
    rw [handOver, endClkLo, if_pos (by exact hj)]
    rfl
  exact h.append hnext (follows_cell c _ p i (j - 1) strobe)

/-- The cells of a byte, bit 7 first (R57, R162). -/
theorem follows_cells (c : Cfg) (d : Bool) (p : Payload) (i : BitVec 3) (strobe : Bool) :
    Follows c d (sending p i 7 .clkHi 5 strobe) (waveCells (payByte p i)) (sending p i 0 .clkLo 11 strobe) :=
  follows_cell c d p i 7 strobe
    |>.nextCell (j := 7) (by decide) |>.nextCell (j := 6) (by decide) |>.nextCell (j := 5) (by decide)
    |>.nextCell (j := 4) (by decide) |>.nextCell (j := 3) (by decide) |>.nextCell (j := 2) (by decide)
    |>.nextCell (j := 1) (by decide)

/-- A framed byte, whatever STROBE was before it: byte 0 or byte 7 of a frame (R162, R167). -/
theorem follows_framed {c : Cfg} (hc : c.wf) (d : Bool) (p : Payload) {i : BitVec 3} (strobe : Bool)
    (hi : i = 0 ∨ i = 7) : Follows c d (sending p i 7 .clkHi 5 strobe) (waveFramed c (payByte p i))
      (sending p i 0 .stbHold c.tStrobeHold true) := by
  obtain ⟨hhold, -⟩ := hc
  have htail : handOver c .clkLo (sending p i 0 .clkLo 11 strobe) =
      (sending p i 0 .stbSetup 100 strobe, []) := by
    rcases hi with rfl | rfl <;> rfl
  exact (follows_cells c d p i strobe).append htail <|
    .next (isSegment_rest p i strobe (by decide) (by decide)) rfl <|
    .next ⟨TxPhase.noConfusion, rfl, Nat.zero_lt_succ _, rfl⟩ rfl <|
    .last (isSegment_rest p i true (by decide) hhold)

/-- A plain byte: bytes 1 to 6 of a frame (R163, R167). -/
theorem follows_plain {c : Cfg} (hc : c.wf) (d : Bool) (p : Payload) {i : BitVec 3} (strobe : Bool)
    (hi : ¬(i = 0 ∨ i = 7)) : Follows c d (sending p i 7 .clkHi 5 strobe) (wavePlain c (payByte p i))
      (sending p i 0 .byteGap c.tByteGap strobe) := by
  obtain ⟨-, hgap, -⟩ := hc
  have htail : handOver c .clkLo (sending p i 0 .clkLo 11 strobe) =
      (sending p i 0 .byteGap c.tByteGap strobe, []) := by
    rw [handOver, endClkLo, if_neg (by exact BitVec.lt_irrefl 0), if_neg (by exact hi)]
    rfl
  exact (follows_cells c d p i strobe).append htail (.last (isSegment_rest p i strobe (by decide) hgap))

/-- The rest between two bytes and the next byte (R164, R167). -/
theorem Follows.nextByte {c : Cfg} (hc : c.wf) {d : Bool} {p : Payload} {i : BitVec 3} {ph : TxPhase}
    {n : BitVec 16} {t u : Tx} {v w : List Seg} (hv : Follows c d t v (sending p i 0 ph n true))
    (hrest : handOver c ph (sending p i 0 ph n true) = (sending p i 0 .interbyte c.tInterbyte true, []))
    (hw : Follows c (payBit p i 0) (sending p (i + 1) 7 .clkHi 5 true) w u) :
    Follows c d t (v ++ [waveRest c.tInterbyte.toNat] ++ w) u :=
  have ⟨_, _, hinter, _⟩ := hc
  (hv.append hrest (.last (isSegment_rest p i true (by decide) hinter))).append rfl hw

/-- The sequencer follows the frame of its payload, whatever STROBE was before it (R164, R170). -/
theorem follows_frame {c : Cfg} (hc : c.wf) (d : Bool) (p : Payload) (strobe : Bool) :
    Follows c d (sending p 0 7 .clkHi 5 strobe) (waveFrame c p) (sending p 7 0 .stbHold c.tStrobeHold true) :=
  follows_framed hc d p strobe (.inl rfl)
    |>.nextByte hc rfl (follows_plain hc _ p (i := 1) true (by decide))
    |>.nextByte hc rfl (follows_plain hc _ p (i := 2) true (by decide))
    |>.nextByte hc rfl (follows_plain hc _ p (i := 3) true (by decide))
    |>.nextByte hc rfl (follows_plain hc _ p (i := 4) true (by decide))
    |>.nextByte hc rfl (follows_plain hc _ p (i := 5) true (by decide))
    |>.nextByte hc rfl (follows_plain hc _ p (i := 6) true (by decide))
    |>.nextByte hc rfl (follows_framed hc _ p (i := 7) true (.inr rfl))

/-! ### Lengths -/

theorem waveTicks_waveRest (n : Nat) : waveTicks [waveRest n] = n := rfl

theorem waveTicks_waveFramed (c : Cfg) (v : Byte) : waveTicks (waveFramed c v) = lenFramed c := by
  rw [waveFramed, waveTicks_append, waveTicks_waveCells, lenFramed]
  simp [waveTicks, waveRest]
  omega

theorem tFrame_eq (c : Cfg) : tFrame c = 8 * 128 + 2 * (100 + 5 + c.tStrobeHold.toNat) +
    6 * c.tByteGap.toNat + 7 * c.tInterbyte.toNat := by
  have hsetup : Config.tStrobeSetup.toNat = 100 := rfl
  have hlow : Config.tStrobeLow.toNat = 5 := rfl
  rw [tFrame, lenFramed, lenPlain, hsetup, hlow]
  omega

/-- A frame is `T_FRAME` ticks long (R80, R171). -/
theorem waveTicks_waveFrame (c : Cfg) (p : Payload) : waveTicks (waveFrame c p) = tFrame c := by
  simp only [waveFrame, waveTicks_append, waveTicks_waveFramed, waveTicks_wavePlain, waveTicks_waveRest,
    tFrame, lenPlain]
  omega

theorem length_waveLines (w : List Seg) : ∀ d, (waveLines d w).length = waveTicks w := by
  induction w with
  | nil => exact fun _ => rfl
  | cons g gs ih =>
    intro d
    rw [waveLines, List.length_append, List.length_replicate, ih, waveTicks_cons]

end Sys2Proof.Machine
end

section
/-! PROOFS. A frame as a request and the transmitter calls (44_frame_transmitter.md R160 to R171): what the block
shows while the sequencer follows the waveform, and the tick that returns to IDLE. -/

namespace Sys2Proof.Machine

/-! ### A frame in ticks of a level -/

/-- TXSTEPs that no request meets keep R46 (f) and (g). -/
theorem txQuietRun_inv {c : Cfg} (hc : c.wf) (n : Nat) {t : Tx} (h : t.Inv) : (txQuietRun c n t).Inv := by
  induction n with
  | zero => exact h
  | succ n ih => exact txStepOp_inv hc Inputs.none ih

theorem sending_cell_inv (p : Payload) (i j : BitVec 3) : (sending p i j .clkHi 5 true).Inv := by
  simp [Tx.Inv, sending]

/-- In each tick of a waveform that the sequencer follows the lines are the waveform's (R160, R170). -/
theorem Follows.lines {c : Cfg} {d : Bool} {t u : Tx} {w : List Seg} (h : Follows c d t w u) (hc : c.wf)
    (ht : t.Inv) {k : Nat} (hk : k < waveTicks w) :
    (waveLines d w)[k]? = some (txQuietRun c k t).lines := by
  rw [Tx.lines_eq_phaseLines (txQuietRun_inv hc k ht)]
  exact (h.tick k hk).2

/-- The last tick of a waveform that the sequencer follows, with nothing labelled since its first. -/
theorem Follows.levelRun_last {s : State} {d : Bool} {u : Tx} {w : List Seg} (h : Follows s.cfg d s.tx w u)
    (level : Bool) : (levelRun level (waveTicks w - 1) s).tx = { u with dly := 1 } ∧
      (levelRun level (waveTicks w - 1) s).txEvents = s.txEvents :=
  ⟨by rw [levelRun_tx, h.run_last], levelRun_txEvents level _ s h.silent⟩

/-- Byte 7 ends in IDLE with the lines at rest (R167, R168). -/
theorem txStepOp_end_of_byte7 (c : Cfg) (p : Payload) (n : BitVec 16) :
    txStepOp c Inputs.none { sending p 7 0 .stbHold n true with dly := 1 } = (restAfter p 7, [.txDone]) := rfl

/-- From the tick of acceptance on, a frame ends after `T_FRAME` ticks (R168, R171). -/
theorem levelRun_frame {s : State} {p : Payload} {strobe : Bool} (hc : s.cfg.wf)
    (hs : s.tx = sending p 0 7 .clkHi 5 strobe) (level : Bool) :
    (levelRun level (tFrame s.cfg) s).tx = restAfter p 7 ∧
    (levelRun level (tFrame s.cfg) s).txEvents = s.txEvents ++ [⟨s.now + tFrame s.cfg, .txDone⟩] := by
  have hf : Follows s.cfg s.tx.dataOut s.tx (waveFrame s.cfg p) _ := hs ▸ follows_frame hc _ p strobe
  obtain ⟨htx, hevents⟩ := hf.levelRun_last level
  have hpos := hf.waveTicks_pos
  rw [waveTicks_waveFrame] at htx hevents hpos
  obtain ⟨n, hn⟩ := Nat.exists_eq_add_of_le' hpos
  rw [hn, Nat.add_sub_cancel] at htx hevents
  rw [hn, levelRun_succ, levelTick_tx, levelTick_txEvents, levelRun_cfg, levelRun_now, htx, hevents, txQuiet,
    txStepOp_end_of_byte7]
  exact ⟨rfl, rfl⟩

/-! ### A request -/

@[simp] theorem requestTick_cfg (sel : Sel) (s : State) : (requestTick sel s).cfg = s.cfg := tick_cfg s _
@[simp] theorem requestTick_host (sel : Sel) (s : State) : (requestTick sel s).host = s.host := tick_host s _
@[simp] theorem requestTick_now (sel : Sel) (s : State) : (requestTick sel s).now = s.now + 1 :=
  tick_now s _ rfl
@[simp] theorem requestTick_remoteIn (sel : Sel) (s : State) :
    (requestTick sel s).inp.remoteIn = s.inp.remoteIn := by
  rw [requestTick, tick_inp]
  rfl

/-- The tick of an accepted request begins the first cell of the payload (R165). -/
theorem requestTick_accepted {s : State} {sel : Sel} (hp : s.tx.phase = .idle) (hsel : sel ≠ 3) :
    (requestTick sel s).tx = sending (payloadOf sel) 0 7 .clkHi 5 s.tx.strobeOut ∧
    (requestTick sel s).txEvents = s.txEvents ++ [⟨s.now + 1, .txStart sel⟩] := by
  have hstep : txStepOp s.cfg { s.restInputs with txStart := true, txSel := sel } s.tx =
      (enterCell 0 7 { s.tx with pay := payloadOf sel }, [.txStart sel]) := by
    rw [txStepOp_idle _ _ _ hp]
    exact txRequest_accepted hp hsel
  rw [requestTick, tick_of_no_rst _ _ rfl, runTick_tx, runTick_txEvents, hstep]
  exact ⟨rfl, rfl⟩

/-- WAIT with no host is its ticks with nothing asserted (R86). -/
theorem holdOn_eq_levelRun (n : Nat) {s : State} (h : s.host = .absent) :
    holdOn n s = levelRun s.inp.remoteIn n s := holdLevel_eq_levelRun _ n h

/-- A wait from the tick of acceptance on shows the frame (R160, R170). -/
theorem holdOn_showsFrame {s : State} {p : Payload} (hc : s.cfg.wf) (habs : s.host = .absent)
    (hs : s.tx = sending p 0 7 .clkHi 5 true) (d : Bool) : ∀ k < tFrame s.cfg,
      (holdOn k s).tx.busy = true ∧ (waveLines d (waveFrame s.cfg p))[k]? = some (holdOn k s).tx.lines := by
  intro k hk
  have hf := follows_frame hc d p true
  rw [← waveTicks_waveFrame s.cfg p] at hk
  rw [holdOn_eq_levelRun k habs, levelRun_tx, hs]
  exact ⟨(hf.tick k hk).1, hf.lines hc (sending_cell_inv p 0 7) hk⟩

/-- A wait of `T_FRAME` from the tick of acceptance on ends the frame (R168, R171). -/
theorem holdOn_frame {s : State} {p : Payload} (hc : s.cfg.wf) (habs : s.host = .absent)
    (hs : s.tx = sending p 0 7 .clkHi 5 true) : (holdOn (tFrame s.cfg) s).tx = restAfter p 7 ∧
      (holdOn (tFrame s.cfg) s).txEvents = s.txEvents ++ [⟨s.now + tFrame s.cfg, .txDone⟩] := by
  rw [holdOn_eq_levelRun _ habs]
  exact levelRun_frame hc hs _

/-- A wait that is busy before each of its ticks runs to its bound (R87). -/
theorem waitWhileBusy_of_busy {n : Nat} {s : State} (h : ∀ k < n, (holdOn k s).tx.busy = true) :
    waitWhileBusy n s = holdOn n s := by
  obtain ⟨m, hm, heq, hend, -⟩ := waitWhileBusy_eq_holdOn n s
  rcases Nat.lt_or_eq_of_le hm with hlt | rfl
  · rw [heq, hend (h m hlt)]
  · exact heq

/-- TXW of an accepted request is its tick and the `T_FRAME` ticks of the frame (R87, R171). -/
theorem exec_txw_accepted {s : State} {sel : Sel} (hp : s.tx.phase = .idle) (hsel : sel ≠ 3) (hc : s.cfg.wf)
    (habs : s.host = .absent) : exec (.txw sel) s =
      .next (levelRun s.inp.remoteIn (tFrame s.cfg) (requestTick sel s.fresh)) := by
  obtain ⟨htx, -⟩ := requestTick_accepted (s := s.fresh) hp hsel
  have hhost : (requestTick sel s.fresh).host = .absent := (requestTick_host sel s.fresh).trans habs
  have hf := follows_frame hc true (payloadOf sel) s.fresh.tx.strobeOut
  refine congrArg Host.Outcome.next ((waitWhileBusy_of_busy fun k hk => ?_).trans ?_)
  · rw [holdOn_eq_levelRun k hhost, levelRun_tx, htx, requestTick_cfg]
    exact (hf.tick k (by rwa [waveTicks_waveFrame])).1
  · rw [holdOn_eq_levelRun _ hhost, requestTick_remoteIn]
    rfl

/-! ### Transmitter calls -/

/-- The tick `leave` that follows the last phase `u` of a call returns to the registers `r`, with TXDONE and
beside the timer and decoder half of every tick (R168). -/
def ReturnsTo (leave : State → State) (c : Cfg) (u r : Tx) : Prop :=
  ∀ s : State, s.cfg = c → s.tx = { u with dly := 1 } →
    ∃ g, leave s = runTick g s.restInputs s ∧ g s.tx = (r, [.txDone])

theorem returnsTo_plainTick (c : Cfg) (p : Payload) (n : BitVec 16) :
    ReturnsTo plainTick c (sending p 7 0 .stbHold n true) (restAfter p 7) := by
  intro s _ htx
  refine ⟨txStepOp s.cfg s.restInputs, tick_of_no_rst s _ rfl, ?_⟩
  rw [txStepOp_eq_none _ _ rfl, htx, txStepOp_end_of_byte7]

theorem returnsTo_endTick (c : Cfg) (p : Payload) (i : BitVec 3) {ph : TxPhase} (n : BitVec 16)
    (hph : ph = .clkLo ∨ ph = .byteGap) : ReturnsTo endTick c (sending p i 0 ph n true) (restAfter p i) := by
  intro s _ htx
  refine ⟨callEnd, rfl, ?_⟩
  rw [htx]
  rcases hph with rfl | rfl <;> rfl

/-- What a call from IDLE does, up to its byte `e`: it shows its waveform, answers it, and after one tick more is
in IDLE with the lines at rest and TXDONE labelled (R160, R168). -/
structure CallShows (w : List Seg) (p : Payload) (i j e : BitVec 3) (leave : State → State) (s t : State) :
    Prop where
  shows : ShowsWave w p i j s.fresh
  eq : t = { leave (callTicks p i j (waveTicks w - 1) s.fresh) with result := .wave w }
  now : t.now = s.now + waveTicks w + 1
  tx : t.tx = restAfter p e
  said : t.said.filter Label.ofTx = [.txDone]

/-- DATA stays at the last bit sent (R168). -/
theorem CallShows.dataOut {w : List Seg} {p : Payload} {i j e : BitVec 3} {leave : State → State}
    {s t : State} (h : CallShows w p i j e leave s t) : t.tx.dataOut = (payByte p e).getLsbD 0 := by
  rw [h.tx]
  rfl

/-- The first tick of a call: the first cell of its operand, and no label (R161, R165). -/
theorem callTicks_zero {s : State} (p : Payload) (i j : BitVec 3) (hp : s.tx.phase = .idle) :
    (callTicks p i j 0 s).tx = sending p i j .clkHi 5 s.tx.strobeOut ∧
    (callTicks p i j 0 s).txEvents = s.txEvents := by
  refine ⟨callTicks_tx p i j 0 hp, ?_⟩
  rw [callTicks, times_zero, runTick_txEvents, callBegin_idle _ _ _ _ _ hp]
  exact List.append_nil _

/-- In IDLE a call runs its ticks, leaves them, and answers its waveform (R160). -/
theorem txCall_idle (w : List Seg) (p : Payload) (i j : BitVec 3) (leave : State → State) {s : State}
    (hp : s.tx.phase = .idle) : txCall w p i j leave s =
      { leave (callTicks p i j (waveTicks w - 1) s) with result := .wave w } :=
  if_neg fun hb => (Tx.busy_iff s.tx).1 hb hp

section
variable {s : State} {w : List Seg} {p : Payload} {i j : BitVec 3} {u : Tx} (hinv : s.tx.Inv)
  (hp : s.tx.phase = .idle) (hf : Follows s.cfg s.tx.dataOut (sending p i j .clkHi 5 true) w u)

include hinv hp in
/-- Where R46 holds a call begins with STROBE high. -/
theorem callTicks_begin (p : Payload) (i j : BitVec 3) :
    (callTicks p i j 0 s).tx = sending p i j .clkHi 5 true := by
  rw [(callTicks_zero p i j hp).1, Tx.strobe_high_of_inv hinv (by simp [hp])]

include hinv hp in
theorem callTicks_tx_eq_sending (p : Payload) (i j : BitVec 3) (k : Nat) :
    (callTicks p i j k s).tx = txQuietRun s.cfg k (sending p i j .clkHi 5 true) := by
  rw [callTicks_eq_levelRun, levelRun_tx, callTicks_begin hinv hp]
  rfl

include hinv hp hf in
/-- The ticks of a call show the waveform that the sequencer follows (R160, R46). -/
theorem callTicks_showsWave (hc : s.cfg.wf) : ShowsWave w p i j s := by
  intro k hk
  have hbegin := sending_cell_inv p i j
  rw [callTicks_tx_eq_sending hinv hp]
  exact ⟨hf.lines hc hbegin hk, (hf.tick k hk).1, txQuietRun_inv hc k hbegin⟩

include hinv hp hf in
/-- The last of these ticks: its last phase has one tick left, and nothing was labelled. -/
theorem callTicks_last : (callTicks p i j (waveTicks w - 1) s).tx = { u with dly := 1 } ∧
    (callTicks p i j (waveTicks w - 1) s).txEvents = s.txEvents ∧
    (callTicks p i j (waveTicks w - 1) s).now = s.now + waveTicks w := by
  have hpos := hf.waveTicks_pos
  have hf0 : Follows (callTicks p i j 0 s).cfg s.tx.dataOut (callTicks p i j 0 s).tx w u := by
    rw [callTicks_begin hinv hp]
    exact hf
  obtain ⟨htx, hevents⟩ := hf0.levelRun_last s.inp.remoteIn
  rw [callTicks_eq_levelRun]
  refine ⟨htx, hevents.trans (callTicks_zero p i j hp).2, ?_⟩
  rw [levelRun_now]
  show s.now + 1 + (waveTicks w - 1) = _
  omega

end

/-- A call whose waveform the sequencer follows, and whose last tick returns to rest. -/
theorem txCall_shows {s : State} {w : List Seg} {p : Payload} {i j e : BitVec 3} {leave : State → State}
    {u : Tx} (hc : s.cfg.wf) (hinv : s.tx.Inv) (hp : s.tx.phase = .idle)
    (hf : Follows s.cfg s.tx.dataOut (sending p i j .clkHi 5 true) w u)
    (hleave : ReturnsTo leave s.cfg u (restAfter p e)) :
    CallShows w p i j e leave s (txCall w p i j leave s.fresh) := by
  obtain ⟨htx, hevents, hnow⟩ := callTicks_last (s := s.fresh) hinv hp hf
  obtain ⟨g, hg, hrest⟩ := hleave _ (callTicks_frame p i j (waveTicks w - 1) s.fresh).1 htx
  have hcall := txCall_idle w p i j leave (s := s.fresh) hp
  have hend : (txCall w p i j leave s.fresh).txEvents =
      (leave (callTicks p i j (waveTicks w - 1) s.fresh)).txEvents := by
    rw [hcall]
    rfl
  refine ⟨callTicks_showsWave (s := s.fresh) hinv hp hf hc, hcall, ?_, ?_, ?_⟩
  · rw [hcall, hg]
    exact congrArg (· + 1) hnow
  · rw [hcall, hg]
    exact congrArg Prod.fst hrest
  · rw [State.said_filter_ofTx, hend, hg, runTick_txEvents, hevents, hrest]
    rfl

/-- TXBIT: its operand is bit 0 of byte 7 (R161). -/
theorem txCall_bit_shows (b : Bool) {s : State} (hc : s.cfg.wf) (hinv : s.tx.Inv) (hp : s.tx.phase = .idle) :
    CallShows (waveBit b) (if b then 1 else 0) 7 0 7 endTick s
      (txCall (waveBit b) (if b then 1 else 0) 7 0 endTick s.fresh) := by
  have hf := follows_cell s.cfg s.tx.dataOut (if b then 1 else 0) 7 0 true
  rw [show payBit (if b then 1 else 0) 7 0 = b by cases b <;> rfl] at hf
  exact txCall_shows hc hinv hp hf (returnsTo_endTick _ _ 7 11 (.inl rfl))

theorem payByte_byte7 (v : Byte) : payByte (v.setWidth 64) 7 = v := by
  ext k hk
  have hk64 : k < 64 := by omega
  simp [payByte, hk64, BitVec.getLsbD_eq_getElem hk]

theorem payByte_byte6 (v : Byte) : payByte (v.setWidth 64 <<< 8) 6 = v := by
  ext k hk
  have hk64 : 8 + k < 64 := by omega
  simp [payByte, hk64, BitVec.getLsbD_eq_getElem hk]

/-- A framed TXBYTE: its operand is byte 7 (R162). -/
theorem txCall_framed_shows (v : Byte) {s : State} (hc : s.cfg.wf) (hinv : s.tx.Inv)
    (hp : s.tx.phase = .idle) : CallShows (waveFramed s.cfg v) (v.setWidth 64) 7 7 7 plainTick s
      (txCall (waveFramed s.cfg v) (v.setWidth 64) 7 7 plainTick s.fresh) := by
  have hf := follows_framed hc s.tx.dataOut (v.setWidth 64) true (.inr rfl)
  rw [payByte_byte7] at hf
  exact txCall_shows hc hinv hp hf (returnsTo_plainTick _ _ _)

/-- A plain TXBYTE: its operand is byte 6 (R163). -/
theorem txCall_plain_shows (v : Byte) {s : State} (hc : s.cfg.wf) (hinv : s.tx.Inv)
    (hp : s.tx.phase = .idle) : CallShows (wavePlain s.cfg v) (v.setWidth 64 <<< 8) 6 7 6 endTick s
      (txCall (wavePlain s.cfg v) (v.setWidth 64 <<< 8) 6 7 endTick s.fresh) := by
  have hf := follows_plain hc s.tx.dataOut (v.setWidth 64 <<< 8) true (i := 6) (by decide)
  rw [payByte_byte6] at hf
  exact txCall_shows hc hinv hp hf (returnsTo_endTick _ _ 6 _ (.inr rfl))

/-- TXFRAME: bytes 0 to 7 of its operand (R164). -/
theorem txCall_frame_shows (p : Payload) {s : State} (hc : s.cfg.wf) (hinv : s.tx.Inv)
    (hp : s.tx.phase = .idle) : CallShows (waveFrame s.cfg p) p 0 7 7 plainTick s
      (txCall (waveFrame s.cfg p) p 0 7 plainTick s.fresh) :=
  txCall_shows hc hinv hp (follows_frame hc _ p true) (returnsTo_plainTick _ _ _)

/-! ### The obligations -/

/-- Settles O46: the tick of acceptance, and the frame after it whatever STROBE was before. -/
theorem frameTakesTFrameTicks : Obligations.FrameTakesTFrameTicks := by
  intro s sel hp hsel hc habs n hn
  obtain rfl : n = tFrame s.cfg := hn.trans (tFrame_eq s.cfg).symm
  obtain ⟨htx, hstart⟩ := requestTick_accepted (s := s.fresh) hp hsel
  obtain ⟨hrest, hdone⟩ := levelRun_frame (by rwa [requestTick_cfg]) htx s.inp.remoteIn
  rw [requestTick_cfg, State.fresh_cfg] at hrest hdone
  refine ⟨_, exec_txw_accepted hp hsel hc habs, ?_, ?_, ?_⟩
  · rw [levelRun_now, requestTick_now, State.fresh_now]
  · rw [hrest, restAfter, payByte_bit]
    rfl
  · rw [← State.txEvents, hdone, hstart, requestTick_now]
    rfl

/-- Settles O47: the sequencer follows the frame from the tick of acceptance on. -/
theorem sequencerShowsTheWaveform : Obligations.SequencerShowsTheWaveform := by
  intro s sel hinv hp hsel hc habs
  obtain ⟨htx, -⟩ := requestTick_accepted (s := s.fresh) hp hsel
  rw [State.fresh_tx, Tx.strobe_high_of_inv hinv (by simp [hp])] at htx
  have hshows := holdOn_showsFrame (s := (requestTick sel s.fresh).fresh) hc habs htx s.tx.dataOut
  obtain ⟨hrest, hdone⟩ := holdOn_frame (s := (requestTick sel s.fresh).fresh) hc habs htx
  refine ⟨requestTick sel s.fresh, rfl, fun k hk => ⟨_, rfl, hshows k hk⟩, ⟨_, rfl, ?_, ?_⟩, ?_⟩
  · exact congrArg Tx.busy hrest
  · refine And.left (List.mem_filter (p := Label.ofTx).1 ?_)
    rw [State.said_filter_ofTx]
    exact List.mem_map_of_mem (hdone ▸ List.mem_append_right _ (List.mem_singleton_self _))
  · rw [length_waveLines, waveTicks_waveFrame]

/-- Settles O49: each call from IDLE, and the calls while busy. -/
theorem callsDriveTheirWaveforms : Obligations.CallsDriveTheirWaveforms := by
  intro s hc hinv
  refine ⟨fun hp => ⟨fun b p w hpay hw => ?bit, fun v p w n hpay hn hw => ?framed,
    fun v p w n hpay hn hw => ?plain, fun p w n hw hn => ?frame⟩, fun hbusy b v p => ?busy⟩
  case bit =>
    have h := txCall_bit_shows b hc hinv hp
    have hexec : exec (.txBit b) s = .next (txCall (waveBit b) (if b then 1 else 0) 7 0 endTick s.fresh) := by
      cases b <;> rfl
    subst hpay hw
    exact ⟨_, hexec, h.shows, h.eq, h.now, h.tx, h.dataOut.trans (by cases b <;> rfl), h.said⟩
  case framed =>
    have h := txCall_framed_shows v hc hinv hp
    subst hpay hw
    rw [hn, show 128 + 105 + s.cfg.tStrobeHold.toNat = waveTicks (waveFramed s.cfg v) from
      (waveTicks_waveFramed s.cfg v).symm]
    exact ⟨_, rfl, h.shows, h.eq, h.now, h.tx, h.dataOut.trans (by rw [payByte_byte7]), h.said⟩
  case plain =>
    have h := txCall_plain_shows v hc hinv hp
    subst hpay hw
    rw [hn, ← waveTicks_wavePlain s.cfg v]
    exact ⟨_, rfl, h.shows, h.eq, h.now, h.tx, h.dataOut.trans (by rw [payByte_byte6]), h.said⟩
  case frame =>
    have h := txCall_frame_shows p hc hinv hp
    rw [hw, hn, ← waveTicks_waveFrame s.cfg p]
    exact ⟨_, rfl, h.shows, h.eq, h.now, h.tx, h.dataOut.trans (payByte_bit p 7 0), h.said⟩
  case busy =>
    have hnone (w : List Seg) (q : Payload) (i j : BitVec 3) (leave : State → State) :
        Host.Outcome.next (txCall w q i j leave s.fresh) = (.next s.fresh : Host.Outcome State Fault Refusal) :=
      congrArg Host.Outcome.next (txCall_busy w q i j leave s.fresh hbusy)
    exact ⟨hnone _ _ _ _ _, hnone _ _ _ _ _, hnone _ _ _ _ _, hnone _ _ _ _ _⟩

/-- Settles O57: after its first tick the block is the same, and so it stays. -/
theorem frameCallAgreesWithTheRequest : Obligations.FrameCallAgreesWithTheRequest := by
  intro s sel hc hp hsel habs
  obtain ⟨htx, -⟩ := requestTick_accepted (s := s.fresh) hp hsel
  have hfirst : SameBlock (callTicks (payloadOf sel) 0 7 0 s.fresh) (requestTick sel s.fresh) := by
    refine ⟨(tick_rx s.fresh _ rfl).symm, ?_, (tick_cfg s.fresh _).symm, (tick_now s.fresh _ rfl).symm⟩
    rw [htx]
    exact (callTicks_zero (s := s.fresh) _ 0 7 hp).1
  have hend := hfirst.levelRun s.inp.remoteIn (tFrame s.cfg)
  have hcall : exec (.txFrame (payloadOf sel)) s = .next { levelRun s.inp.remoteIn (tFrame s.cfg)
      (callTicks (payloadOf sel) 0 7 0 s.fresh) with result := .wave (waveFrame s.cfg (payloadOf sel)) } := by
    have hpos := (follows_frame hc true (payloadOf sel) true).waveTicks_pos
    refine congrArg Host.Outcome.next ((txCall_idle _ _ _ _ _ (s := s.fresh) hp).trans ?_)
    rw [← callTicks_succ, Nat.sub_add_cancel hpos, callTicks_eq_levelRun, waveTicks_waveFrame]
    rfl
  exact ⟨_, _, hcall, exec_txw_accepted hp hsel hc habs, hend.rx, hend.tx, hend.now⟩

end Sys2Proof.Machine
end

section
/-! PROOFS. The waveform as the radio sees it (44_frame_transmitter.md R171, R172): the bits at the falling edges
of CLOCK, and where STROBE is low. -/

namespace Sys2Proof.Machine

/-! ### The bits received -/

/-- At rest no edge comes (R172). -/
theorem received_waveRest (d : Bool) (n : Nat) (w : List Seg) :
    received false (waveLines d (waveRest n :: w)) = received false (waveLines d w) := by
  induction n with
  | zero => rfl
  | succ n ih => exact ih

/-- A cell gives its bit (R161, R172). -/
theorem received_waveBit (d b : Bool) (w : List Seg) :
    received false (waveLines d (waveBit b ++ w)) = b :: received false (waveLines b w) := rfl

/-- The bits of a byte as they are sent (R57). -/
def bitsOfByte (v : Byte) : List Bool := (List.range 8).map fun i => v.getMsbD i

/-- The cells of a byte give its bits (R162, R172). -/
theorem received_waveCells (d : Bool) (v : Byte) (w : List Seg) :
    received false (waveLines d (waveCells v ++ w)) =
      bitsOfByte v ++ received false (waveLines (v.getLsbD 0) w) := by
  simp only [waveCells, List.append_assoc, received_waveBit]
  rfl

/-- The strobe moves no clock (R162, R172). -/
theorem received_waveFramed (c : Cfg) (d : Bool) (v : Byte) (w : List Seg) :
    received false (waveLines d (waveFramed c v ++ w)) =
      bitsOfByte v ++ received false (waveLines (v.getLsbD 0) w) := by
  rw [waveFramed, List.append_assoc, received_waveCells]
  congr 1
  exact (received_waveRest _ _ _).trans (received_waveRest _ _ _)

theorem received_wavePlain (c : Cfg) (d : Bool) (v : Byte) (w : List Seg) :
    received false (waveLines d (wavePlain c v ++ w)) =
      bitsOfByte v ++ received false (waveLines (v.getLsbD 0) w) := by
  rw [wavePlain, List.append_assoc, received_waveCells]
  congr 1
  exact received_waveRest _ _ _

theorem getMsbD_payByte (p : Payload) {i j : Nat} (hi : i < 8) (hj : j < 8) :
    (payByte p (BitVec.ofNat 3 i)).getMsbD j = p.getMsbD (8 * i + j) := by
  have hbyte : (BitVec.ofNat 3 i).toNat = i := by
    rw [BitVec.toNat_ofNat]
    omega
  have hp : 8 * i + j < 64 := by omega
  have hbit : 7 - j < 8 := by omega
  have hindex : 8 * (7 - i) + (7 - j) = 63 - (8 * i + j) := by omega
  simp [payByte, BitVec.getMsbD, hbyte, hj, hp, hbit, hindex]

/-- The bits of a payload are those of its bytes, byte 0 first (R56). -/
theorem payload_bits (p : Payload) : (List.range 64).map (fun i => p.getMsbD i) =
    (List.range 8).flatMap fun i => bitsOfByte (payByte p (BitVec.ofNat 3 i)) := by
  have hrange : List.range 64 = (List.range 8).flatMap fun i => (List.range 8).map fun j => 8 * i + j := by
    decide
  rw [hrange, List.map_flatMap, List.flatMap_def, List.flatMap_def]
  refine congrArg List.flatten (List.map_congr_left fun i hi => ?_)
  rw [List.map_map, bitsOfByte]
  exact List.map_congr_left fun j hj => (getMsbD_payByte p (List.mem_range.1 hi) (List.mem_range.1 hj)).symm

/-- A frame gives the bits of its bytes, byte 0 first (R164, R172). -/
theorem received_waveFrame (c : Cfg) (d : Bool) (p : Payload) :
    received false (waveLines d (waveFrame c p)) =
      (List.range 8).flatMap fun i => bitsOfByte (payByte p (BitVec.ofNat 3 i)) := by
  have hlast (d : Bool) (v : Byte) : received false (waveLines d (waveFramed c v)) = bitsOfByte v := by
    have h := received_waveFramed c d v []
    rwa [List.append_nil, waveLines, received, List.append_nil] at h
  simp only [waveFrame, List.append_assoc, List.cons_append, List.nil_append,
    received_waveFramed, received_wavePlain, received_waveRest, hlast]
  rfl

/-! ### The strobe -/

/-- Offset `k` of a waveform is in a segment with STROBE low. -/
def StrobeLowAt : List Seg → Nat → Prop
  | [], _ => False
  | g :: gs, k => (k < g.ticks ∧ g.strobe = false) ∨ (g.ticks ≤ k ∧ StrobeLowAt gs (k - g.ticks))

/-- The levels of a waveform have STROBE low where its segments do (R160). -/
theorem strobe_waveLines {w : List Seg} : ∀ {d : Bool} {k : Nat} {l : Lines},
    (waveLines d w)[k]? = some l → (l.strobe = false ↔ StrobeLowAt w k) := by
  induction w with
  | nil => exact fun h => nomatch h
  | cons g gs ih =>
    intro d k l h
    rw [waveLines] at h
    by_cases hk : k < g.ticks
    · rw [List.getElem?_append_left (by simpa using hk), List.getElem?_replicate, if_pos hk] at h
      obtain rfl := Option.some.inj h
      have hnot : ¬g.ticks ≤ k := Nat.not_le.2 hk
      simp only [StrobeLowAt, hk, hnot, true_and, false_and, or_false]
    · rw [List.getElem?_append_right (by simpa using hk), List.length_replicate] at h
      simp only [StrobeLowAt, hk, ih h, Nat.not_lt.1 hk, true_and, false_and, false_or]

theorem strobeLowAt_append (v w : List Seg) : ∀ k : Nat,
    StrobeLowAt (v ++ w) k ↔ StrobeLowAt v k ∨ (waveTicks v ≤ k ∧ StrobeLowAt w (k - waveTicks v)) := by
  induction v with
  | nil => intro k; simp [StrobeLowAt, waveTicks]
  | cons g gs ih =>
    intro k
    rw [List.cons_append, StrobeLowAt, ih, StrobeLowAt, waveTicks_cons, Nat.sub_sub, or_assoc]
    have hle : g.ticks ≤ k ∧ waveTicks gs ≤ k - g.ticks ↔ g.ticks + waveTicks gs ≤ k := by omega
    rw [and_or_left, ← and_assoc, hle]

/-- With STROBE high in every segment it is low nowhere. -/
theorem not_strobeLowAt {w : List Seg} (h : ∀ g ∈ w, g.strobe = true) : ∀ k, ¬StrobeLowAt w k := by
  induction w with
  | nil => exact fun _ => id
  | cons g gs ih =>
    obtain ⟨hg, hgs⟩ := List.forall_mem_cons.1 h
    rintro k (⟨-, hlow⟩ | ⟨-, hlow⟩)
    · rw [hg] at hlow
      cases hlow
    · exact ih hgs _ hlow

theorem not_strobeLowAt_waveCells (v : Byte) (k : Nat) : ¬StrobeLowAt (waveCells v) k :=
  not_strobeLowAt (by simp [waveCells, waveBit]) k

theorem not_strobeLowAt_wavePlain (c : Cfg) (v : Byte) (k : Nat) : ¬StrobeLowAt (wavePlain c v) k :=
  not_strobeLowAt (by simp [wavePlain, waveCells, waveBit, waveRest]) k

theorem not_strobeLowAt_waveRest (n k : Nat) : ¬StrobeLowAt [waveRest n] k :=
  not_strobeLowAt (by simp [waveRest]) k

/-- In a framed byte STROBE is low in 5 ticks after 228 (R162, R171). -/
theorem strobeLowAt_waveFramed (c : Cfg) (v : Byte) (k : Nat) :
    StrobeLowAt (waveFramed c v) k ↔ 228 ≤ k ∧ k ≤ 232 := by
  have hsetup : Config.tStrobeSetup.toNat = 100 := rfl
  have hlow : Config.tStrobeLow.toNat = 5 := rfl
  rw [waveFramed, strobeLowAt_append, waveTicks_waveCells]
  simp only [not_strobeLowAt_waveCells, StrobeLowAt, waveRest, hsetup, hlow]
  simp
  omega

/-- Before byte 7 a frame has one framed byte, byte 0 (R164, R171). -/
theorem strobeLowAt_waveFrame (c : Cfg) (p : Payload) (k : Nat) : StrobeLowAt (waveFrame c p) k ↔
    (228 ≤ k ∧ k ≤ 232) ∨ (byte7Offset c + 228 ≤ k ∧ k ≤ byte7Offset c + 232) := by
  simp only [waveFrame, strobeLowAt_append, strobeLowAt_waveFramed, not_strobeLowAt_wavePlain,
    not_strobeLowAt_waveRest, and_false, or_false, waveTicks_append, waveTicks_waveFramed,
    waveTicks_wavePlain, waveTicks_waveRest, byte7Offset, lenPlain]
  omega

/-! ### The obligation -/

/-- Settles O48: the bits cell by cell, and STROBE low in the framed bytes alone. -/
theorem receiverRebuildsThePayload : Obligations.ReceiverRebuildsThePayload := by
  refine fun c p d _ => ⟨(received_waveFrame c d p).trans (payload_bits p).symm, fun k l hl => ?_⟩
  rw [strobe_waveLines hl, strobeLowAt_waveFrame]

end Sys2Proof.Machine
end

section
/-! PROOFS. The reference host beside the block (45_host_dispatch.md R190 to R192), the line at rest: a wait
leads from one stage of host and block to the next, and an iteration is such waits one after another. -/

namespace Sys2Proof.Machine

/-! ### A tick with the line at rest -/

/-- The labels of the transmitter and of the host's clear among those of the last operation. -/
def State.hostEvents (s : State) : List Event := s.labels.filter fun e => e.label.ofHostSide

theorem ofHostSide_of_ofTx {l : Label} (h : l.ofTx = true) : l.ofHostSide = true := by
  cases l with
  | txStart _ | txDone => rfl
  | _ => cases h

theorem filter_ofHostSide_txStepOp (c : Cfg) (inp : Inputs) (t : Tx) :
    (txStepOp c inp t).2.filter Label.ofHostSide = (txStepOp c inp t).2 :=
  List.filter_eq_self.2 fun l hl => ofHostSide_of_ofTx (txStepOp_labels_ofTx c inp t l hl)

theorem filter_ofHostSide_advanceOp (r : Rx) : (advanceOp r).2.filter Label.ofHostSide = [] := by
  rcases advanceOp_cases r with ⟨-, h⟩ | ⟨-, -, h⟩ | ⟨-, -, h⟩ <;> rw [h] <;> rfl

/-- The label of a clear, if one is asserted (R151). -/
def clearLabel (clr : Bool) : List Label := if clr then [.stateClr] else []

/-- With the line at rest only a clear moves the changer state, and nothing else labels for the host. -/
theorem rxTick_atRest (inp : Inputs) {r : Rx} (hl : inp.remoteIn = r.remotePrev) :
    (rxTick inp r).1.remotePrev = r.remotePrev ∧
    (rxTick inp r).1.cstate = (if inp.stateClr then 0 else r.cstate) ∧
    (rxTick inp r).2.filter Label.ofHostSide = clearLabel inp.stateClr := by
  cases hc : inp.stateClr with
  | false =>
    obtain ⟨hst, hprev⟩ := advanceOp_frame r
    rw [rxTick_quiet inp r hc hl]
    exact ⟨hprev, hst, filter_ofHostSide_advanceOp r⟩
  | true =>
    obtain ⟨hst, hprev⟩ := advanceOp_frame { r with cstate := 0 }
    rw [rxTick_clear r hc, rxTick_quiet { inp with stateClr := false } { r with cstate := 0 } rfl hl]
    exact ⟨hprev, hst, congrArg (Label.stateClr :: ·) (filter_ofHostSide_advanceOp { r with cstate := 0 })⟩

/-- In a tick with the line at rest the labels for the host are the clear's and the transmitter's (R203). -/
theorem tick_hostEvents (inp : Inputs) {s : State} (hrst : inp.rst = false)
    (hl : inp.remoteIn = s.rx.remotePrev) : (tick inp s).hostEvents = s.hostEvents ++
      (clearLabel inp.stateClr ++ (txStepOp s.cfg inp s.tx).2).map (Event.mk (s.now + 1)) := by
  obtain ⟨-, -, hrx⟩ := rxTick_atRest inp hl
  rw [State.hostEvents, tick_labels _ _ hrst, List.filter_append, List.filter_map]
  show _ ++ List.map _ (List.filter Label.ofHostSide _) = _
  rw [List.filter_append, hrx, filter_ofHostSide_txStepOp]
  rfl

/-- A request but RESET leaves `rst` alone (R39). -/
theorem drive_rst {q : HostReq} {i : Inputs} (hq : q ≠ .reset) (h : i.rst = false) :
    (q.drive i).rst = false := by
  cases q with
  | none | tx _ | clr => exact h
  | reset => exact absurd rfl hq

/-- The request alone decides whether the state is cleared (R39). -/
theorem drive_stateClr (q : HostReq) {i : Inputs} (h : i.stateClr = false) :
    (q.drive i).stateClr = (q.drive Inputs.none).stateClr := by
  cases q with
  | none | tx _ | reset => exact h
  | clr => rfl

/-- Of its inputs TXSTEP reads the request alone. -/
theorem txStepOp_drive (c : Cfg) (q : HostReq) {i : Inputs} (t : Tx) (h : i.txStart = false) :
    txStepOp c (q.drive i) t = txStepOp c (q.drive Inputs.none) t := by
  cases q with
  | tx _ => rfl
  | none | clr | reset => exact txStepOp_eq_none c t h

/-! ### Stages -/

/-- What a wait with the line at rest depends on beside the configuration: the tick number, the changer state,
the transmitter, and where the reference host stands. -/
structure Stage where
  now : Nat
  cstate : Sel
  tx : Tx
  pc : DispatchPc

/-- The state is at the stage, with the line at rest. -/
structure Stage.Holds (c : Cfg) (a : Stage) (s : State) : Prop where
  cfg : s.cfg = c
  line : s.inp.remoteIn = s.rx.remotePrev
  now : s.now = a.now
  cstate : s.rx.cstate = a.cstate
  tx : s.tx = a.tx
  host : s.host = .dispatch a.pc

/-- A wait of `n` ticks leads from every state at the first stage to the second, with these labels for the
host. -/
def Leads (c : Cfg) (n : Nat) (a : Stage) (ls : List Event) (b : Stage) : Prop :=
  ∀ s, a.Holds c s → b.Holds c (holdOn n s) ∧ (holdOn n s).hostEvents = s.hostEvents ++ ls

theorem holdOn_add (m n : Nat) (s : State) : holdOn (m + n) s = holdOn n (holdOn m s) := by
  induction m generalizing s with
  | zero => rw [Nat.zero_add]; rfl
  | succ m ih => rw [Nat.succ_add, holdOn_succ, holdOn_succ, ih]

theorem Leads.refl (c : Cfg) (a : Stage) : Leads c 0 a [] a :=
  fun s h => ⟨h, (List.append_nil s.hostEvents).symm⟩

theorem Leads.trans {c : Cfg} {m n : Nat} {a b d : Stage} {ls ms : List Event} (hab : Leads c m a ls b)
    (hbd : Leads c n b ms d) : Leads c (m + n) a (ls ++ ms) d := by
  intro s hs
  obtain ⟨hb, hls⟩ := hab s hs
  obtain ⟨hd, hms⟩ := hbd _ hb
  rw [holdOn_add]
  exact ⟨hd, by rw [hms, hls, List.append_assoc]⟩

/-- The stage after a tick in which the host asserts `q` and then stands at `pc`. -/
def Stage.next (c : Cfg) (q : HostReq) (pc : DispatchPc) (a : Stage) : Stage :=
  { now := a.now + 1
    cstate := if (q.drive Inputs.none).stateClr then 0 else a.cstate
    tx := (txStepOp c (q.drive Inputs.none) a.tx).1
    pc := pc }

/-- The labels for the host of such a tick. -/
def Stage.nextEvents (c : Cfg) (q : HostReq) (a : Stage) : List Event :=
  (clearLabel (q.drive Inputs.none).stateClr ++ (txStepOp c (q.drive Inputs.none) a.tx).2).map
    (Event.mk (a.now + 1))

/-- One tick beside the reference host: it acts on the outputs of the tick before (R190, R191). -/
theorem leads_tick {c : Cfg} {a : Stage} {q : HostReq} {pc : DispatchPc}
    (hact : dispatchAct c a.cstate a.tx.busy a.pc = (q, pc)) (hq : q ≠ .reset) :
    Leads c 1 a (a.nextEvents c q) (a.next c q pc) := by
  intro s ⟨hcfg, hline, hnow, hst, htx, hhost⟩
  have hworld : holdOn 1 s = tick (q.drive s.restInputs) { s with host := .dispatch pc } := by
    show worldTick s.inp.remoteIn s = _
    rw [worldTick, hhost, hcfg, hst, htx, hostAct, hact]
    rfl
  have hrst : (q.drive s.restInputs).rst = false := drive_rst hq rfl
  have hclr : (q.drive s.restInputs).stateClr = (q.drive Inputs.none).stateClr := drive_stateClr q rfl
  have hrest := (drive_remoteIn q s.restInputs).trans hline
  obtain ⟨hprev, hst', -⟩ := rxTick_atRest _ hrest
  have hevents := tick_hostEvents (s := { s with host := .dispatch pc }) _ hrst hrest
  rw [hworld]
  constructor
  · constructor
    · rw [tick_cfg, hcfg]
    · rw [tick_inp, tick_rx _ _ hrst, hrest, hprev]
    · rw [tick_now _ _ hrst, hnow]
      rfl
    · rw [tick_rx _ _ hrst, hst', hclr, hst]
      rfl
    · rw [tick_tx _ _ hrst, txStepOp_drive _ _ _ rfl, hcfg, htx]
      rfl
    · exact tick_host _ _
  · rw [hevents, hclr, txStepOp_drive _ _ _ rfl, hcfg, htx, hnow]
    rfl

/-- A wait that starts at the stage of a state: what the statements read of its end. -/
theorem Leads.exec_wait {s : State} {n : Nat} {pc : DispatchPc} {ls : List Event} {b : Stage}
    (h : Leads s.cfg n ⟨s.now, s.rx.cstate, s.tx, pc⟩ ls b) (hhost : s.host = .dispatch pc)
    (hline : s.inp.remoteIn = s.rx.remotePrev) : ∃ t, exec (.wait n) s = .next t ∧ b.Holds s.cfg t ∧
      t.labels.filter (fun e => e.label.ofHostSide) = ls :=
  ⟨_, (runs_wait n).exec_eq s, h s.fresh ⟨rfl, hline, rfl, rfl, rfl, hhost⟩⟩

/-! ### An idle transmitter -/

theorem Tx.busy_of_idle {t : Tx} (h : t.phase = .idle) : t.busy = false := by rw [Tx.busy, h]; rfl

/-- With nothing asserted IDLE stays as it is (R167). -/
theorem txStepOp_idle_none (c : Cfg) {t : Tx} (h : t.phase = .idle) :
    txStepOp c Inputs.none t = (t, []) :=
  (txStepOp_idle c _ t h).trans (txRequest_refused (.inl rfl))

/-- A tick of a pause (R191). -/
theorem leads_pauseTick {c : Cfg} {n : Nat} {cs : Sel} {t : Tx} {pc pc' : DispatchPc} (ht : t.phase = .idle)
    (hact : dispatchAct c cs false pc = (.none, pc')) :
    Leads c 1 ⟨n, cs, t, pc⟩ [] ⟨n + 1, cs, t, pc'⟩ := by
  have hbusy := Tx.busy_of_idle ht
  have h := leads_tick (a := ⟨n, cs, t, pc⟩) (hbusy ▸ hact) HostReq.noConfusion
  rw [Stage.next, Stage.nextEvents, HostReq.drive, txStepOp_idle_none c ht] at h
  exact h

/-- A tick in which the host requests a payload (R165, R191). -/
theorem leads_request {c : Cfg} {n : Nat} {cs sel : Sel} {t : Tx} {pc pc' : DispatchPc} (ht : t.phase = .idle)
    (hsel : sel ≠ 3) (hact : dispatchAct c cs false pc = (.tx sel, pc')) :
    Leads c 1 ⟨n, cs, t, pc⟩ [⟨n + 1, .txStart sel⟩]
      ⟨n + 1, cs, sending (payloadOf sel) 0 7 .clkHi 5 t.strobeOut, pc'⟩ := by
  have hbusy := Tx.busy_of_idle ht
  have hstep : txStepOp c ((HostReq.tx sel).drive Inputs.none) t =
      (enterCell 0 7 { t with pay := payloadOf sel }, [.txStart sel]) :=
    (txStepOp_idle c _ t ht).trans (txRequest_accepted ht hsel)
  have h := leads_tick (a := ⟨n, cs, t, pc⟩) (hbusy ▸ hact) HostReq.noConfusion
  rw [Stage.next, Stage.nextEvents, hstep] at h
  exact h

/-- After the confirming STOP frame the next tick clears the state (R192). -/
theorem leads_clear {c : Cfg} {n : Nat} {cs sent : Sel} {t : Tx} (ht : t.phase = .idle) :
    Leads c 1 ⟨n, cs, t, .sending sent true⟩ [⟨n + 1, .stateClr⟩]
      ⟨n + 1, 0, t, .pause c.tCyclePause⟩ := by
  have hact : dispatchAct c cs t.busy (.sending sent true) = (.clr, .pause c.tCyclePause) := by
    rw [Tx.busy_of_idle ht]
    rfl
  have hstep : txStepOp c (HostReq.clr.drive Inputs.none) t = (t, []) := txStepOp_idle_none c ht
  have h := leads_tick (a := ⟨n, cs, t, .sending sent true⟩) hact HostReq.noConfusion
  rw [Stage.next, Stage.nextEvents, hstep] at h
  exact h

/-! ### Pauses -/

/-- With `k` ticks of pause left the host, beside a block that is not busy, acts as it does at `pc`; the pause
ends in a request for the payload of `sel`, and then the host stands at `sent` (R191). -/
inductive PausesFor (c : Cfg) (cs sel : Sel) (sent : DispatchPc) : Nat → DispatchPc → Prop
  | request {pc : DispatchPc} (hact : dispatchAct c cs false pc = (.tx sel, sent)) :
      PausesFor c cs sel sent 0 pc
  | tick {k : Nat} {pc pc' : DispatchPc} (hact : dispatchAct c cs false pc = (.none, pc'))
      (hrest : PausesFor c cs sel sent k pc') : PausesFor c cs sel sent (k + 1) pc

/-- Only what the host does in the next tick counts. -/
theorem PausesFor.congr {c : Cfg} {cs sel : Sel} {sent pc pc' : DispatchPc} {k : Nat}
    (h : PausesFor c cs sel sent k pc) (hact : dispatchAct c cs false pc' = dispatchAct c cs false pc) :
    PausesFor c cs sel sent k pc' := by
  cases h with
  | request hreq => exact .request (hact.trans hreq)
  | tick hpause hrest => exact .tick (hact.trans hpause) hrest

/-- The settle delay and the cycle pause end in a read of the changer state. -/
theorem pausesFor_pause (c : Cfg) (cs : Sel) : ∀ k, PausesFor c cs cs (.sending cs false) k (.pause k)
  | 0 => .request rfl
  | k + 1 => .tick rfl (pausesFor_pause c cs k)

/-- The stop pause ends in the confirming STOP frame. -/
theorem pausesFor_stopPause (c : Cfg) (cs : Sel) : ∀ k, PausesFor c cs 2 (.sending 2 true) k (.stopPause k)
  | 0 => .request rfl
  | k + 1 => .tick rfl (pausesFor_stopPause c cs k)

/-- After a frame of an iteration that did not read STOP the cycle pause begins. -/
theorem pausesFor_afterFrame (c : Cfg) (cs : Sel) {sent : Sel} (h : sent ≠ 2) :
    PausesFor c cs cs (.sending cs false) c.tCyclePause (.sending sent false) :=
  (pausesFor_pause c cs c.tCyclePause).congr (if_neg h)

/-- After the first STOP frame the stop pause begins. -/
theorem pausesFor_afterStop (c : Cfg) (cs : Sel) :
    PausesFor c cs 2 (.sending 2 true) c.tStopPause (.sending 2 false) :=
  (pausesFor_stopPause c cs c.tStopPause).congr rfl

/-- A pause of `k` ticks and the tick of its request. -/
theorem PausesFor.leads {c : Cfg} {cs sel : Sel} {sent pc : DispatchPc} {k : Nat}
    (h : PausesFor c cs sel sent k pc) {t : Tx} (ht : t.phase = .idle) (hsel : sel ≠ 3) (n : Nat) :
    Leads c (k + 1) ⟨n, cs, t, pc⟩ [⟨n + k + 1, .txStart sel⟩]
      ⟨n + k + 1, cs, sending (payloadOf sel) 0 7 .clkHi 5 t.strobeOut, sent⟩ := by
  induction h generalizing n with
  | request hact => exact leads_request ht hsel hact
  | @tick k pc pc' hact _ ih =>
    have htick := (leads_pauseTick ht hact).trans (ih (n + 1))
    rwa [show n + 1 + k + 1 = n + (k + 1) + 1 by omega, Nat.add_comm 1 (k + 1)] at htick

/-! ### Frames -/

/-- While the block is busy and gives no label the host waits for the end of its frame (R191). -/
theorem leads_busy {c : Cfg} {cs sel : Sel} {second : Bool} {t : Tx} (n m : Nat)
    (hbusy : ∀ k < m, (txQuietRun c k t).busy = true) (hsilent : TxSilent c m t) :
    Leads c m ⟨n, cs, t, .sending sel second⟩ [] ⟨n + m, cs, txQuietRun c m t, .sending sel second⟩ := by
  induction m with
  | zero => exact Leads.refl c _
  | succ m ih =>
    have hact : dispatchAct c cs (txQuietRun c m t).busy (.sending sel second) =
        (.none, .sending sel second) := if_pos (hbusy m (Nat.lt_succ_self m))
    have hlast : (txStepOp c (HostReq.none.drive Inputs.none) (txQuietRun c m t)).2 = [] :=
      hsilent m (Nat.lt_succ_self m)
    have htick := leads_tick (a := ⟨n + m, cs, txQuietRun c m t, .sending sel second⟩) hact
      HostReq.noConfusion
    rw [Stage.next, Stage.nextEvents, hlast] at htick
    exact (ih (fun k hk => hbusy k (Nat.lt_succ_of_lt hk)) fun k hk =>
      hsilent k (Nat.lt_succ_of_lt hk)).trans htick

/-- From the tick of acceptance on, a frame ends after `T_FRAME` ticks, the host waiting (R168, R171, R191). -/
theorem leads_frame {c : Cfg} (hc : c.wf) (n : Nat) (cs sel : Sel) (second : Bool) (p : Payload)
    (strobe : Bool) : Leads c (tFrame c) ⟨n, cs, sending p 0 7 .clkHi 5 strobe, .sending sel second⟩
      [⟨n + tFrame c, .txDone⟩] ⟨n + tFrame c, cs, restAfter p 7, .sending sel second⟩ := by
  have hf := follows_frame hc true p strobe
  obtain ⟨m, hm⟩ := Nat.exists_eq_add_of_le' hf.waveTicks_pos
  have hbusy : ∀ k < m, (txQuietRun c k (sending p 0 7 .clkHi 5 strobe)).busy = true := fun k hk =>
    (hf.tick k (by omega)).1
  have hsilent := hf.silent
  have hrun := hf.run_last
  rw [hm, Nat.add_sub_cancel] at hsilent hrun
  have hlong := leads_busy (cs := cs) (sel := sel) (second := second) n m hbusy hsilent
  have hlast := leads_tick (c := c) (pc := .sending sel second)
    (a := ⟨n + m, cs, { sending p 7 0 .stbHold c.tStrobeHold true with dly := 1 }, .sending sel second⟩)
    rfl HostReq.noConfusion
  rw [hrun] at hlong
  rw [← waveTicks_waveFrame c p, hm]
  exact hlong.trans hlast

/-- A pause, the request at its end, and the frame. -/
theorem PausesFor.leads_untilDone {c : Cfg} (hc : c.wf) {cs sel : Sel} {second : Bool} {pc : DispatchPc} {k : Nat}
    (h : PausesFor c cs sel (.sending sel second) k pc) {t : Tx} (ht : t.phase = .idle) (hsel : sel ≠ 3)
    (n : Nat) : Leads c (k + 1 + tFrame c) ⟨n, cs, t, pc⟩
      [⟨n + k + 1, .txStart sel⟩, ⟨n + k + 1 + tFrame c, .txDone⟩]
      ⟨n + k + 1 + tFrame c, cs, restAfter (payloadOf sel) 7, .sending sel second⟩ :=
  (h.leads ht hsel n).trans (leads_frame hc _ _ _ _ _ _)

/-! ### The obligations -/

/-- Settles O53: the settle delay by definition, a pause by its ticks and the request at its end. -/
theorem dispatchRequestsThePayloadOfTheState : Obligations.DispatchRequestsThePayloadOfTheState := by
  refine fun s => ⟨rfl, fun n hhost hp hsel hline => ?_⟩
  obtain ⟨t, hexec, hend, hls⟩ := ((pausesFor_pause s.cfg s.rx.cstate n).leads hp hsel s.now).exec_wait
    hhost hline
  exact ⟨t, hexec, hend.host, congrArg Tx.phase hend.tx, congrArg Tx.pay hend.tx, hend.cstate, hls⟩

/-- Settles O54: the read of STOP and its frame, the stop pause and the second frame, the clear. -/
theorem stopSequenceReturnsToInit : Obligations.StopSequenceReturnsToInit := by
  rintro s f p rfl rfl hhost hp hc hstop hline
  have hread : PausesFor s.cfg s.rx.cstate 2 (.sending 2 false) 0 (.pause 0) :=
    hstop ▸ pausesFor_pause s.cfg s.rx.cstate 0
  have hfirst := hread.leads_untilDone hc hp (by decide) s.now
  have hsecond := (pausesFor_afterStop s.cfg s.rx.cstate).leads_untilDone hc
    (t := restAfter (payloadOf 2) 7) rfl (by decide) (s.now + 0 + 1 + tFrame s.cfg)
  have hall := (hfirst.trans hsecond).trans (leads_clear rfl)
  rw [show 0 + 1 + tFrame s.cfg + (s.cfg.tStopPause + 1 + tFrame s.cfg) + 1 =
    2 * (tFrame s.cfg + 1) + s.cfg.tStopPause + 1 by omega] at hall
  obtain ⟨t, hexec, hend, hls⟩ := hall.exec_wait hhost hline
  refine ⟨t, hexec, hend.cstate, congrArg Tx.phase hend.tx, hend.host, ?_⟩
  rw [hls]
  simp only [List.cons_append, List.nil_append, List.cons.injEq, Event.mk.injEq, and_true, true_and]
  omega

/-- Settles O55: each position of the host is a pause with its request, or the clear; from a read the frame
comes before the pause. -/
theorem iterationsOfTheHostGoOn : Obligations.IterationsOfTheHostGoOn := by
  rintro s f c p rfl rfl rfl hp hc hline
  refine ⟨fun hhost hstop hres => ?read, fun sent hhost hsent hres => ?goOn, fun hhost => ?stop,
    fun sent hhost => ?clear⟩
  case read =>
    have hframe := (pausesFor_pause s.cfg s.rx.cstate 0).leads_untilDone hc hp hres s.now
    have hall := hframe.trans
      ((pausesFor_afterFrame s.cfg s.rx.cstate hstop).leads (t := restAfter _ 7) rfl hres _)
    rw [Nat.zero_add, ← Nat.add_assoc] at hall
    obtain ⟨t, hexec, hend, hls⟩ := hall.exec_wait hhost hline
    exact ⟨t, hexec, hend.cstate, congrArg Tx.phase hend.tx, congrArg Tx.pay hend.tx, hend.host, hls⟩
  case goOn =>
    obtain ⟨t, hexec, hend, hls⟩ := ((pausesFor_afterFrame s.cfg s.rx.cstate hsent).leads hp hres
      s.now).exec_wait hhost hline
    exact ⟨t, hexec, congrArg Tx.pay hend.tx, hend.host, hls⟩
  case stop =>
    obtain ⟨t, hexec, hend, hls⟩ := ((pausesFor_afterStop s.cfg s.rx.cstate).leads hp (by decide)
      s.now).exec_wait hhost hline
    exact ⟨t, hexec, congrArg Tx.pay hend.tx, hend.host, hls⟩
  case clear =>
    obtain ⟨t, hexec, hend, hls⟩ := (leads_clear hp).exec_wait hhost hline
    exact ⟨t, hexec, hend.cstate, hend.host, hls⟩

end Sys2Proof.Machine
end

section
/-! PROOFS. Every operation completes (46_top_level_step.md R205, 60_exceptions.md R210), and writes neither the
configuration nor the stimulus still to run (10_state.md R48). -/

namespace Sys2Proof.Machine

/-! ### Ticks and what is made of them -/

/-- The configuration and the stimulus of `t` are those of `s` (R48). -/
structure SameOutside (s t : State) : Prop where
  cfg : t.cfg = s.cfg
  stim : t.stim = s.stim

theorem SameOutside.tick {s t : State} (h : SameOutside s t) (inp : Inputs) : SameOutside s (tick inp t) :=
  ⟨(tick_cfg t inp).trans h.cfg, (tick_stim t inp).trans h.stim⟩

theorem SameOutside.worldTick {s t : State} (h : SameOutside s t) (level : Bool) :
    SameOutside s (worldTick level t) :=
  ⟨(worldTick_cfg level t).trans h.cfg, (worldTick_stim level t).trans h.stim⟩

theorem SameOutside.holdLevel {s t : State} (h : SameOutside s t) (level : Bool) (n : Nat) :
    SameOutside s (holdLevel level n t) :=
  times_keeps (P := SameOutside s) _ (fun _ hu => hu.worldTick level) n t h

theorem SameOutside.runPulse {s t : State} (h : SameOutside s t) (m l : Nat) :
    SameOutside s (runPulse m l t) :=
  (h.holdLevel true m).holdLevel false l

theorem SameOutside.runStart {s t : State} (h : SameOutside s t) : SameOutside s (runStart t) :=
  h.runPulse _ _

theorem SameOutside.runBit {s t : State} (h : SameOutside s t) (b : Bool) : SameOutside s (runBit b t) :=
  h.runPulse _ _

theorem SameOutside.runWord {s t : State} (h : SameOutside s t) (w : CmdWord) : SameOutside s (runWord w t) :=
  List.foldlRecOn (bitsOfWord w) _ (motive := SameOutside s) h.runStart fun _ hu b _ => hu.runBit b

theorem SameOutside.runFrame {s t : State} (h : SameOutside s t) (m sp : Dur) (data : List (Dur × Dur))
    (closing : Dur) : SameOutside s (runFrame m sp data closing t) :=
  SameOutside.holdLevel (List.foldlRecOn data _ (motive := SameOutside s) (h.runPulse _ _) fun _ hu p _ =>
    hu.runPulse p.1.toNat p.2.toNat) true closing.toNat

theorem SameOutside.waitWhileBusy {s t : State} (h : SameOutside s t) (n : Nat) :
    SameOutside s (waitWhileBusy n t) := by
  obtain ⟨k, -, hwait, -⟩ := waitWhileBusy_eq_holdOn n t
  rw [hwait]
  exact h.holdLevel _ k

/-- A call leaves the world beside the block alone if its last tick does. -/
theorem SameOutside.txCall {s t : State} (h : SameOutside s t) {leave : State → State}
    (hleave : ∀ u, SameOutside s u → SameOutside s (leave u)) (w : List Seg) (p : Payload) (i j : BitVec 3) :
    SameOutside s (txCall w p i j leave t) := by
  unfold Machine.txCall
  split
  · exact h
  · obtain ⟨hcfg, hstim, -⟩ := callTicks_frame p i j (waveTicks w - 1) t
    have hleft := hleave _ ⟨hcfg.trans h.cfg, hstim.trans h.stim⟩
    exact ⟨hleft.cfg, hleft.stim⟩

/-! ### Every operation -/

/-- Every operation answers a next state and leaves the world beside the block alone: one on a half by its
definition, one made of ticks because a tick does (R205, R210). -/
theorem exec_completes (i : Instr) (s : State) : ∃ t, exec i s = .next t ∧ SameOutside s t := by
  have hf : SameOutside s s.fresh := ⟨rfl, rfl⟩
  have hend : ∀ u, SameOutside s u → SameOutside s (endTick u) := fun _ hu => ⟨hu.cfg, hu.stim⟩
  have hplain : ∀ u, SameOutside s u → SameOutside s (plainTick u) := fun _ hu => hu.tick _
  cases i with
  | noedgeLo | noedgeHi | rise | fall | start | rejectIdle | rejectMark | bit1 | bit0 | rejectSpace
  | cmdSelectA | cmdSelectB | cmdDeselect | cmdReserved | wordInvalid | valid | elapsed | within | ctxReset
  | complete | command | payloadInit | payloadPlay | payloadStop | cstateInit | cstatePlay | cstateStop
  | cstateReserved | phaseIdle | phaseClkHi | phaseClkLo | phaseStbSetup | phaseStbLow | phaseStbHold
  | phaseByteGap | phaseInterbyte | stateClr | txStart | txStartRefused | txStep | advance | ovf | timeout
  | tmrClr | dispatch => exact ⟨_, rfl, rfl, rfl⟩
  | txBit | txBytePlain => exact ⟨_, rfl, hf.txCall hend _ _ _ _⟩
  | txByteFramed | txFrame => exact ⟨_, rfl, hf.txCall hplain _ _ _ _⟩
  | step | reset | tx | clr => exact ⟨_, rfl, hf.tick _⟩
  | hi | lo | wait | close | idle => exact ⟨_, rfl, hf.holdLevel _ _⟩
  | pulse m l => exact ⟨_, rfl, hf.runPulse m l⟩
  | startItem => exact ⟨_, rfl, hf.runStart⟩
  | b1 | b0 => exact ⟨_, rfl, hf.runBit _⟩
  | word | cmd => exact ⟨_, rfl, hf.runWord _⟩
  | rframe m sp data closing => exact ⟨_, rfl, hf.runFrame m sp data closing⟩
  | txw sel => exact ⟨_, rfl, SameOutside.waitWhileBusy (hf.tick _) _⟩

/-! ### The obligation -/

/-- Settles O4, by cases on the operation. -/
theorem everyOperationCompletes : Obligations.EveryOperationCompletes := by
  intro i s
  obtain ⟨t, hexec, hcfg, hstim⟩ := exec_completes i s
  exact ⟨t, hexec, hcfg, hstim⟩

end Sys2Proof.Machine
end

section
/-! PROOFS. One tick as its operations (46_top_level_step.md R200 to R203): the halves beside each other, the order
of the operations and of their labels. -/

namespace Sys2Proof.Machine

/-! ### The halves -/

/-- The timer and decoder half reads no input of the transmitter (R202). -/
theorem rxTick_congr {inp inp' : Inputs} (hline : inp.remoteIn = inp'.remoteIn)
    (hclr : inp.stateClr = inp'.stateClr) : rxTick inp = rxTick inp' := by
  rw [rxTick, rxTick, hline, hclr]

/-- The transmitter reads no input of the timer and decoder half (R202). -/
theorem txStepOp_congr (c : Cfg) {inp inp' : Inputs} (hstart : inp.txStart = inp'.txStart)
    (hsel : inp.txSel = inp'.txSel) : txStepOp c inp = txStepOp c inp' := by
  funext t
  rw [txStepOp, txStepOp, phaseArm, phaseArm, hstart, hsel]

/-! ### The operations of a tick -/

/-- A requested clear is the operation STATECLR; where none is requested nothing runs (R151, R200). -/
theorem exec_stateClr_or_fresh (c : Bool) (s : State) :
    if c then exec .stateClr s = .next (s.fresh.onRx (whenRx c stateClrOp))
    else s.fresh.onRx (whenRx c stateClrOp) = s.fresh := by
  cases c <;> rfl

/-- The operation that the edge vector names is the edge operation of the tick (R82, R200). -/
theorem exec_edgeVector (level : Bool) {s : State} {prev : Bool} (h : s.rx.remotePrev = prev) :
    exec (decodeEdge (edgeVector prev level)) s = .next (s.fresh.onRx (edgeTick level)) := by
  subst h
  rw [State.onRx_eq, State.fresh_rx]
  rcases edgeTick_cases level s.rx with ⟨rfl, e⟩ | ⟨rfl, hprev, e⟩ | ⟨rfl, hprev, e⟩
  · rw [e]
    cases s.rx.remotePrev <;> rfl
  · rw [e, hprev]
    rfl
  · rw [e, hprev]
    rfl

/-- The operations before the edge leave the line sample alone, so the edge is that of the tick before. -/
theorem advanceOp_clear_remotePrev (c : Bool) (r : Rx) :
    (advanceOp (whenRx c stateClrOp r).1).1.remotePrev = r.remotePrev := by
  refine (advanceOp_frame _).2.trans ?_
  cases c <;> rfl

/-- The labels of the timer and decoder half, operation by operation: the sampling gives none (R200). -/
theorem rxTick_labels (inp : Inputs) (r : Rx) : (rxTick inp r).2 =
    (whenRx inp.stateClr stateClrOp r).2 ++ (advanceOp (whenRx inp.stateClr stateClrOp r).1).2 ++
      (edgeTick inp.remoteIn (advanceOp (whenRx inp.stateClr stateClrOp r).1).1).2 := by
  simp [rxTick, samplePrev]

/-! ### The labels of a tick -/

/-- What a tick can label for its edge: nothing, or one label of FALL or RISE (R203). -/
def EdgeLabel (ls : List Label) : Prop :=
  ls = [] ∨ (∃ d, ls = [.fall d]) ∨ ls = [.start] ∨ ls = [.rejectIdle] ∨ ls = [.rejectMark] ∨
    ls = [.bit0] ∨ ls = [.bit1] ∨ ls = [.rejectSpace]

/-- The labels of an edge operation: its own, and after a bit possibly the label of a word (R127, R203). -/
def EdgeLabels (ls : List Label) : Prop :=
  ∃ edge done, ls = edge ++ done ∧ EdgeLabel edge ∧
    (done = [] ∨ (edge = [.bit0] ∨ edge = [.bit1]) ∧ ∃ w, done = [doneLabel w])

/-- An edge operation that completes no word. -/
theorem EdgeLabel.edgeLabels {ls : List Label} (h : EdgeLabel ls) : EdgeLabels ls :=
  ⟨ls, [], (List.append_nil ls).symm, h, .inl rfl⟩

theorem edgeLabel_nil : EdgeLabel [] := .inl rfl
theorem edgeLabel_fall (d : Dur) : EdgeLabel [.fall d] := .inr (.inl ⟨d, rfl⟩)

theorem bitLabel_cases (b : Bool) : [bitLabel b] = [.bit0] ∨ [bitLabel b] = [.bit1] := by
  cases b
  · exact .inl rfl
  · exact .inr rfl

theorem edgeLabel_bitLabel (b : Bool) : EdgeLabel [bitLabel b] := by
  rcases bitLabel_cases b with h | h <;> simp [EdgeLabel, h]

/-- A bit labels itself, the 32nd its word too (R127, R134). -/
theorem takeBit_edgeLabels (b : Bool) (r : Rx) : EdgeLabels (takeBit b r).2 := by
  by_cases h : r.nbits = 31
  · rw [takeBit_full b h]
    exact ⟨[bitLabel b], [doneLabel _], rfl, edgeLabel_bitLabel b, .inr ⟨bitLabel_cases b, _, rfl⟩⟩
  · rw [takeBit_of_ne b h, bitOp_eq]
    exact (edgeLabel_bitLabel b).edgeLabels

theorem riseOp_edgeLabels (d : Dur) (r : Rx) : EdgeLabels (riseOp d r).2 := by
  rw [riseOp_eq]
  split
  · exact (show EdgeLabel [.start] by simp [EdgeLabel]).edgeLabels
  · split
    · exact (show EdgeLabel [.rejectIdle] by simp [EdgeLabel]).edgeLabels
    · split
      · exact (show EdgeLabel [.rejectMark] by simp [EdgeLabel]).edgeLabels
      · split
        · exact takeBit_edgeLabels _ _
        · exact (show EdgeLabel [.rejectSpace] by simp [EdgeLabel]).edgeLabels

theorem edgeTick_edgeLabels (level : Bool) (r : Rx) : EdgeLabels (edgeTick level r).2 := by
  rcases edgeTick_cases level r with ⟨-, e⟩ | ⟨-, -, e⟩ | ⟨-, -, e⟩ <;> rw [e]
  · exact edgeLabel_nil.edgeLabels
  · exact riseOp_edgeLabels _ r
  · exact (edgeLabel_fall _).edgeLabels

/-- A clear labels itself (R151). -/
theorem whenRx_stateClrOp_labels (c : Bool) (r : Rx) :
    (whenRx c stateClrOp r).2 = [] ∨ (whenRx c stateClrOp r).2 = [.stateClr] := by
  cases c
  · exact .inl rfl
  · exact .inr rfl

/-- ADVANCE labels at most a timeout (R113). -/
theorem advanceOp_labels (r : Rx) : (advanceOp r).2 = [] ∨ (advanceOp r).2 = [.timeout] := by
  rcases advanceOp_cases r with ⟨-, h⟩ | ⟨-, -, h⟩ | ⟨-, -, h⟩ <;> rw [h]
  · exact .inl rfl
  · exact .inl rfl
  · exact .inr rfl

/-- The labels of the timer and decoder half, in their order (R203). -/
theorem rxTick_labels_inOrder (inp : Inputs) (r : Rx) : ∃ clear timeout edge,
    (rxTick inp r).2 = clear ++ timeout ++ edge ∧ (clear = [] ∨ clear = [.stateClr]) ∧
    (timeout = [] ∨ timeout = [.timeout]) ∧ EdgeLabels edge :=
  ⟨_, _, _, rxTick_labels inp r, whenRx_stateClrOp_labels inp.stateClr r, advanceOp_labels _,
    edgeTick_edgeLabels inp.remoteIn _⟩

/-- A hand-over labels at most the end of the frame (R168). -/
theorem handOver_labels (c : Cfg) (p : TxPhase) (t : Tx) :
    (handOver c p t).2 = [] ∨ (handOver c p t).2 = [.txDone] := by
  cases p with
  | idle | clkHi | stbSetup | stbLow | byteGap | interbyte => exact .inl rfl
  | clkLo => exact .inl (by rw [handOver_clkLo])
  | stbHold =>
    rw [handOver, endStbHold]
    split
    · exact .inr rfl
    · exact .inl rfl

/-- TXSTEP labels a request it takes or the end of a frame (R165, R168). -/
theorem txStepOp_labels (c : Cfg) (inp : Inputs) (t : Tx) :
    (txStepOp c inp t).2 = [] ∨ (∃ sel, (txStepOp c inp t).2 = [.txStart sel]) ∨
    (txStepOp c inp t).2 = [.txDone] := by
  by_cases hp : t.phase = .idle
  · rw [txStepOp_idle c inp t hp, txRequest_eq]
    split
    · exact .inr (.inl ⟨inp.txSel, rfl⟩)
    · exact .inl rfl
  · rw [txStepOp_timed c inp t hp]
    by_cases hd : 1 < t.dly
    · rw [countDown_count _ _ hd]
      exact .inl rfl
    · rw [countDown_last _ _ hd]
      exact (handOver_labels c t.phase t).imp_right .inr

/-! ### The obligations -/

/-- Settles O10: the operations of the timer and decoder half each run on the state the one before leaves. -/
theorem stepComposesItsOperations : Obligations.StepComposesItsOperations := by
  intro s inp
  refine ⟨fun hrst => ⟨_, _, rfl, rfl, ?_⟩, fun hrst => ?_⟩
  · rw [tick_of_rst _ _ hrst, tick_of_rst _ _ rfl]
    exact ⟨rfl, rfl, rfl, rfl⟩
  · refine ⟨_, _, _, _, _, exec_stateClr_or_fresh inp.stateClr s, rfl,
      exec_edgeVector inp.remoteIn (advanceOp_clear_remotePrev inp.stateClr s.rx), rfl, rfl,
      tick_rx _ _ hrst, tick_tx _ _ hrst, ?_, tick_now _ _ hrst, tick_inp _ _, tick_host _ _⟩
    rw [tick_said _ _ hrst, State.fresh_rx, rxTick_labels]
    simp

/-- Settles O13: each operation of the tick labels its own part. -/
theorem labelsOfATickAreInOrder : Obligations.LabelsOfATickAreInOrder := by
  refine fun s inp => ⟨tick inp s.fresh, rfl, fun hrst => ?_, fun hrst => ?_⟩
  · rw [tick_of_rst _ _ hrst]
    rfl
  · obtain ⟨clear, timeout, _, hsplit, hclear, htimeout, edge, done, rfl, hedge, hdone⟩ :=
      rxTick_labels_inOrder inp s.rx
    refine ⟨clear, timeout, edge, done, _, ?_, hclear, htimeout, hedge, hdone, txStepOp_labels s.cfg inp s.tx⟩
    rw [tick_said _ _ hrst, State.fresh_rx, hsplit]
    simp

/-- Settles O12: each half reads its own registers and inputs. -/
theorem halvesDoNotReadEachOther : Obligations.HalvesDoNotReadEachOther := by
  refine fun s s' inp inp' hrst => ⟨tick inp s.fresh, tick inp' s'.fresh, rfl, rfl, ?_⟩
  cases h : inp.rst with
  | true =>
    rw [tick_of_rst _ _ h, tick_of_rst _ _ (hrst ▸ h)]
    exact ⟨fun _ _ _ => rfl, fun _ _ _ _ => rfl⟩
  | false =>
    rw [tick_of_no_rst _ _ h, tick_of_no_rst _ _ (hrst ▸ h)]
    refine ⟨fun hrx hline hclr => ?_, fun htx hcfg hstart hsel => ?_⟩
    · rw [runTick_rx, runTick_rx, rxTick_congr hline hclr, State.fresh_rx, State.fresh_rx, hrx]
    · rw [runTick_tx, runTick_tx, txStepOp_congr _ hstart hsel, State.fresh_tx, State.fresh_tx,
        State.fresh_cfg, State.fresh_cfg, htx, hcfg]

end Sys2Proof.Machine
end

section
/-! PROOFS. A timeout and an edge in one tick (60_exceptions.md R214): TIMEOUT clears the context, so the edge
that follows reads duration 0 and no mark. -/

namespace Sys2Proof.Machine

/-- At tally 253 and counter 255 ADVANCE is TIMEOUT (R113). -/
theorem advanceOp_of_timeout {r : Rx} (hcnt : r.cnt = 255) (hovf : r.ovf = 253) :
    advanceOp r = (ctxReset { r with cnt := 0 }, [.timeout]) := by
  rcases advanceOp_cases r with ⟨hne, -⟩ | ⟨-, hne, -⟩ | ⟨-, -, h⟩
  · exact absurd hcnt hne
  · exact absurd hovf hne
  · exact h

/-- A cleared context holds no start mark, so RISE rejects in IDLE whatever the space (R127, R129). -/
theorem riseOp_of_contextZero (d : Dur) {r : Rx} (h : r.contextZero) :
    riseOp d r = rejectWith .rejectIdle r := by
  obtain ⟨-, hmark, -, hdec, -, -⟩ := h
  have hstart : ¬(isStartMark r.hiDur = true ∧ isStartSpace d = true) := by
    rw [hmark]
    exact fun hs => absurd hs.1 (by decide)
  rw [riseOp_eq, if_neg hstart, if_pos hdec]

/-- The timer and decoder half of a tick with a timeout and an edge: the context stays cleared, and the label
of the edge comes after the timeout's (R214). -/
theorem rxTick_timeoutEdge (inp : Inputs) {r : Rx} (hcnt : r.cnt = 255) (hovf : r.ovf = 253)
    (hclr : inp.stateClr = false) (hedge : inp.remoteIn ≠ r.remotePrev) : rxTick inp r =
      (ctxReset { r with cnt := 0, remotePrev := inp.remoteIn },
        [.timeout, if inp.remoteIn then .rejectIdle else .fall 0]) := by
  have hadv := advanceOp_of_timeout hcnt hovf
  cases hline : inp.remoteIn with
  | true =>
    have hprev : r.remotePrev = false := Bool.eq_false_iff.2 fun hp => hedge (hline.trans hp.symm)
    rw [rxTick_rise inp r hclr hline hprev, hadv, riseOp_of_contextZero _ (ctxReset_contextZero _)]
    rfl
  | false =>
    have hprev : r.remotePrev = true := eq_true_of_ne_false fun hp => hedge (hline.trans hp.symm)
    rw [rxTick_fall inp r hclr hline hprev, hadv]
    rfl

/-- TXSTEP labels nothing that is not the transmitter's (R211). -/
theorem filter_not_ofTx_txStepOp (c : Cfg) (inp : Inputs) (t : Tx) :
    (txStepOp c inp t).2.filter (fun l => !l.ofTx) = [] :=
  List.filter_eq_nil_iff.2 fun l hl => by simp [txStepOp_labels_ofTx c inp t l hl]

/-- Settles O14: the timer and decoder half by its own law, the transmitter's labels filtered out. -/
theorem timeoutComesBeforeTheEdge : Obligations.TimeoutComesBeforeTheEdge := by
  intro s inp hcnt hovf hrst hclr hedge
  have hrx := rxTick_timeoutEdge inp hcnt hovf hclr hedge
  refine ⟨tick inp s.fresh, rfl, ?_⟩
  rw [tick_rx _ _ hrst, tick_said _ _ hrst, State.fresh_rx, hrx, List.filter_append, filter_not_ofTx_txStepOp]
  refine ⟨ctxReset_contextZero _, rfl, rfl, rfl, ?_⟩
  cases inp.remoteIn <;> rfl

end Sys2Proof.Machine
end

section
/-! PROOFS. Reset and the tick after it (70_reset_and_hazards.md R240, R243), and the closing mark that a word
waits for (R257). -/

namespace Sys2Proof.Machine

/-! ### The tick after reset -/

/-- Without a clear the first tick after reset counts, or rejects the edge it finds (R243). -/
theorem rxTick_reset_of_no_clear {inp : Inputs} (hc : inp.stateClr = false) : rxTick inp Rx.reset =
    ({ Rx.reset with cnt := if inp.remoteIn then 0 else 1, remotePrev := inp.remoteIn },
      if inp.remoteIn then [.rejectIdle] else []) := by
  have hadv : advanceOp Rx.reset = ({ Rx.reset with cnt := 1 }, []) := rfl
  cases hline : inp.remoteIn with
  | true =>
    have hzero : Rx.contextZero { Rx.reset with cnt := 1 } := ⟨rfl, rfl, rfl, rfl, rfl, rfl⟩
    rw [rxTick_rise inp Rx.reset hc hline rfl, hadv, riseOp_of_contextZero _ hzero]
    rfl
  | false =>
    rw [rxTick_quiet inp Rx.reset hc hline, hadv]
    rfl

/-- The timer and decoder half of the first tick after reset: a clear finds INIT already there (R243). -/
theorem rxTick_reset (inp : Inputs) : rxTick inp Rx.reset =
    ({ Rx.reset with cnt := if inp.remoteIn then 0 else 1, remotePrev := inp.remoteIn },
      (if inp.stateClr then [.stateClr] else []) ++ if inp.remoteIn then [.rejectIdle] else []) := by
  cases hc : inp.stateClr with
  | true =>
    rw [rxTick_clear Rx.reset hc, show { Rx.reset with cstate := 0 } = Rx.reset from rfl,
      rxTick_reset_of_no_clear rfl]
    rfl
  | false => exact rxTick_reset_of_no_clear hc

/-! ### The symbols of a word -/

/-- The mark and the space of a bit (R87). -/
def bitSymbol (b : Bool) : Dur × Dur := (650, if b then 1750 else 650)

theorem runBit_eq (b : Bool) (s : State) :
    runBit b s = runPulse (bitSymbol b).1.toNat (bitSymbol b).2.toNat s := by
  cases b <;> rfl

theorem isDataSymbol_bitSymbol (b : Bool) : isDataSymbol (bitSymbol b) = true := by
  cases b <;> decide

theorem isOneSpace_bitSymbol (b : Bool) : isOneSpace (bitSymbol b).2 = b := by
  cases b <;> decide

/-- The upper bits of a word with the next one shifted in (R58, R76). -/
theorem shiftIn_getMsbD (w : CmdWord) {n : Nat} (h : n < 32) :
    shiftIn (w >>> (32 - n)) (w.getMsbD n) = w >>> (31 - n) := by
  refine BitVec.eq_of_getLsbD_eq fun i hi => ?_
  cases i with
  | zero => simp [shiftIn, BitVec.getMsbD, h]
  | succ i => simp [shiftIn, hi, show 32 - n + i = 31 - n + (i + 1) by omega]

/-- The start and the first `n` bits of a word, all but the last one at most, are held in its order (R137). -/
theorem holding_bits (w : CmdWord) {st : BitVec 2} {s : State} (h : Holding 0 0 st s) : ∀ n ≤ 31,
    Holding n (w >>> (32 - n)) st (((List.range n).map fun i => w.getMsbD i).foldl (fun s b => runBit b s) s)
  | 0, _ => by rwa [show w >>> 32 = 0 from BitVec.ushiftRight_eq_zero (Nat.le_refl 32)]
  | n + 1, hn => by
    have hbit := (holding_bits w h n (by omega)).symbol (isDataSymbol_bitSymbol (w.getMsbD n)) (by omega)
    rw [isOneSpace_bitSymbol, shiftIn_getMsbD w (by omega), ← runBit_eq] at hbit
    rwa [List.range_succ, List.map_append, List.foldl_append, show 32 - (n + 1) = 31 - n by omega]

/-- `WORD w` is its first 31 bits held, then the symbol of its last one (R87, R137). -/
theorem exists_holding_runWord (w : CmdWord) {s : State} (h : s.host = .absent) (hl : s.rx.remotePrev = false)
    (hdec : s.rx.decoding = false) (hdones : s.dones = []) :
    ∃ v, Holding 31 (w >>> 1) s.rx.cstate v ∧ runWord w s = runBit (w.getLsbD 0) v := by
  have hstart : Holding 0 0 s.rx.cstate (runStart s) :=
    holding_start (hs := 9000) (ls := 4500) h hl hdec hdones (by decide) (by decide)
  refine ⟨_, holding_bits w hstart 31 (Nat.le_refl 31), ?_⟩
  rw [runWord, bitsOfWord, List.range_succ, List.map_append, List.foldl_append]
  rfl

/-! ### The symbol still open -/

/-- After a data symbol its mark is captured and its space counted but for a tick; what the frame held is
still all it holds (R137, R257). -/
theorem Holding.pulse {n : Nat} {w : CmdWord} {st : BitVec 2} {s u : State} (h : Holding n w st s)
    {p : Dur × Dur} (hp : isDataSymbol p = true) (hu : u = runPulse p.1.toNat p.2.toNat s) :
    u.rx.decoding = true ∧ u.rx.nbits = BitVec.ofNat 6 n ∧ u.rx.cmdBuf = w ∧ u.rx.cstate = st ∧
      u.dones = [] ∧ u.rx.hiDur = p.1 ∧ u.rx.time = p.2.toNat - 1 := by
  subst hu
  obtain ⟨hm, hsp⟩ := fitsTimer_of_isDataSymbol hp
  obtain ⟨-, hrx, hd⟩ := runPulse_eq h.absent h.low hm hsp
  rw [hrx]
  exact ⟨h.decoding, h.nbits, h.cmdBuf, h.cstate, hd.trans h.dones, rfl,
    Rx.time_setTime _ (Nat.lt_of_le_of_lt (Nat.sub_le _ _) p.2.isLt)⟩

/-- With no word completed yet, an operation that starts afresh completes what the run going on would. -/
theorem worldTick_fresh_absent (level : Bool) {s : State} (h : s.host = .absent) (hd : s.dones = []) :
    (worldTick level s.fresh).rx = (worldTick level s).rx ∧
      (worldTick level s.fresh).dones = (worldTick level s).dones := by
  have hf : s.fresh.host = .absent := h
  rw [worldTick_rx_absent level h, worldTick_rx_absent level hf, worldTick_dones_absent level h,
    worldTick_dones_absent level hf, hd]
  exact ⟨rfl, rfl⟩

/-- A closing mark given by an operation of its own completes the 32 bits (R134, R257). -/
theorem Holding.close {w : CmdWord} {st : BitVec 2} {s u : State} (h : Holding 31 w st s)
    {p : Dur × Dur} (hp : isDataSymbol p = true) (hu : u = runPulse p.1.toNat p.2.toNat s) {d : Dur}
    (hd : d ≠ 0) : (holdLevel true d.toNat u.fresh).dones = [doneLabel (shiftIn w (isOneSpace p.2))] ∧
      (holdLevel true d.toNat u.fresh).rx.cstate = afterWord (shiftIn w (isOneSpace p.2)) st ∧
      (holdLevel true d.toNat u.fresh).rx.decoding = false := by
  obtain ⟨-, -, -, -, hnone, -, -⟩ := h.pulse hp hu
  obtain ⟨habs, hlow, hzero, hcs, hdone⟩ := h.complete hp hu
  obtain ⟨hrx, hdones⟩ := worldTick_fresh_absent true habs hnone
  rw [← hrx] at hzero hcs
  obtain ⟨hud, huc, hidle, -⟩ := holdLevel_true_of_empty (u := u.fresh) habs hlow hzero hd
  exact ⟨hud.trans (hdones.trans hdone), huc.trans hcs, hidle⟩

/-! ### The obligations -/

/-- Settles O32: the word is held but for its last bit, whose symbol `CLOSE` ends. -/
theorem wordNeedsItsClosingMark : Obligations.WordNeedsItsClosingMark := by
  intro s w habs hlow hdec
  obtain ⟨v, hheld, hrun⟩ := exists_holding_runWord w (s := s.fresh) habs hlow hdec rfl
  rw [runBit_eq] at hrun
  have hp := isDataSymbol_bitSymbol (w.getLsbD 0)
  have hword : shiftIn (w >>> 1) (isOneSpace (bitSymbol (w.getLsbD 0)).2) = w := by
    rw [isOneSpace_bitSymbol]
    exact shiftIn_getMsbD w (n := 31) (by decide)
  obtain ⟨hopen, hbits, hbuf, hst, hnone, hmark, htime⟩ := hheld.pulse hp hrun
  obtain ⟨hdone, hcs, hidle⟩ := hheld.close hp hrun (d := 650) (by decide)
  rw [hword] at hdone hcs
  refine ⟨runWord w s.fresh, holdLevel true (650 : Dur).toNat (runWord w s.fresh).fresh, rfl, hopen, hbits,
    hbuf, hst, hnone, hmark, htime.trans ?_, rfl, hdone, hcs, hidle⟩
  cases w.getLsbD 0 <;> rfl

/-- Settles O6: each half of the tick by its own law, the transmitter's labels filtered out. -/
theorem firstTickAfterReset : Obligations.FirstTickAfterReset := by
  intro s inp hrx htx hrst
  refine ⟨tick inp s.fresh, rfl, ?_⟩
  rw [tick_rx _ _ hrst, tick_tx _ _ hrst, tick_said _ _ hrst, State.fresh_rx, State.fresh_tx, hrx, htx,
    rxTick_reset]
  refine ⟨rfl, ⟨rfl, rfl, rfl, rfl, rfl, rfl⟩, rfl, rfl, ?labels, fun hstart hsel => ?request⟩
  case labels =>
    rw [List.filter_append, filter_not_ofTx_txStepOp, List.append_nil]
    cases inp.stateClr <;> cases inp.remoteIn <;> rfl
  case request =>
    rw [txStepOp_idle _ _ _ rfl, hstart, txRequest_accepted rfl hsel]
    exact ⟨rfl, List.mem_append_right _ (List.mem_singleton_self _)⟩

/-- Settles O5: a tick with `rst` is the reset tick, whatever the other inputs. -/
theorem resetWritesTheResetTable : Obligations.ResetWritesTheResetTable := by
  refine fun s => ⟨⟨_, rfl, rfl, rfl, rfl⟩, fun inp hrst => ⟨tick inp s.fresh, rfl, ?_⟩, rfl, rfl, rfl⟩
  rw [tick_of_rst _ _ hrst]
  exact ⟨rfl, rfl, rfl⟩

end Sys2Proof.Machine
end
